-- ==== Sys2Proof/Word.lean ====
section
/-!
DEFINITION. The word types of the YL9720: registers are 32 bits wide (R15), memory is addressed in bytes (R10).
Everything a test could show wrong (bit fields, byte order, rounding) stands in Machine/Bits.lean.
-/
namespace Sys2Proof

/-- One byte. -/
abbrev Byte := BitVec 8

/-- One register (R15). -/
abbrev Word := BitVec 32

end Sys2Proof
end

