-- ==== Sys2Proof/Syntax.lean ====
section
/-!
DEFINITION. The commands of the block: one constructor of Instr for each row of spec/opcode_table.json, in the table's order.
An operand is what comes from outside the block's state: the bytes of a transaction or of a command entry, an instance
number, an event on a pin, a measured value, or which of several waiting items acts.
-/
namespace Sys2Proof

/-- A command that the firmware has taken: the Tray, the 64 bytes of its ring entry (R379, R380), and its index in the Tray (R376),
which tells apart two entries of the same bytes. -/
structure Cmd where
  tray : Fin 8
  entry : List Byte
  index : Nat
deriving DecidableEq, Repr

/-- A received IST transaction: the module (0 UA, 1 UB), the 16 bytes of its header slot (R358) and its data bytes (R357). -/
structure Ist where
  m : Fin 2
  hdr : List Byte
  data : List Byte
deriving DecidableEq, Repr

/-- An event pulse: the source E-number and the two capture words that the raising block gives (R416, R573). -/
structure Pulse where
  src : Fin 576
  lo : Word
  hi : Word
deriving DecidableEq, Repr

/-- What a reference diode reads (R470): a temperature in 1/256 degree C, or the open or the short signature. -/
inductive Diode where
  | valid (t : Int)
  | opened
  | shorted
deriving DecidableEq, Repr

/-- The five classes of DRAM requests (R33, R315). -/
inductive DClass where
  | rtp | rtu | rt | mg | be
deriving DecidableEq, Repr

/-- The requesters of R33. Engine fetches and Easel ports belong to a quadrant (R34). -/
inductive DClient where
  | easel (q : Fin 4)
  | fetch (q : Fin 4)
  | fixer | host | contact | bracket
  | firmware | shadow | logging
deriving DecidableEq, Repr

/-- A DRAM request (R311): its requester, its byte address and length, and for a write the mask of the bytes written, bit k for the
k-th byte of the length, and the bytes; a mask of 0 marks a read. `block` names the slot address of the YTC block that the request reads or
stores (R207). -/
structure DramReq where
  who : DClient
  addr : Nat
  len : Nat
  mask : Nat
  block : Option Nat
  data : List Byte
deriving DecidableEq, Repr

/-- What the check code of a DRAM read finds now (R329, R330), by beats of the request: single-bit errors and uncorrectable ones. -/
structure EccErr where
  single : List Nat
  multi : List Nat
deriving DecidableEq, Repr

/-- One YTC plane: a plane of a plate buffer (R84), the residual plane (R124), a Dodge plane (R217), or a channel of a
previous-frame store (R223). -/
inductive PlaneRef where
  | plate (slot : Fin 8) (buf : Fin 2) (plane : Fin 4)
  | residual
  | dodge (q : Fin 4) (set : Fin 2) (plane : Fin 8)
  | pfs (q : Fin 4) (ch : Fin 3)
deriving DecidableEq, Repr

/-- A received network frame: PTP version, transport (0 layer 2, 1 IPv4/UDP, 2 any other), the destination address (6 bytes of a MAC
address, or 4 of an IPv4 address), domain, messageType, sequenceId, in a Delay_Resp the 10 bytes of its requestingPortIdentity (R439), and the
whole frame. -/
structure PtpFrame where
  version : Nat
  transport : Nat
  dst : List Byte
  dom : Nat
  msgType : Nat
  seqId : BitVec 16
  requester : List Byte
  body : List Byte
deriving DecidableEq, Repr

/-- What the PTP protocol has met (R433, R434): a received frame, or a transmitted event message with its sequenceId and messageType, each
with its stamp in 2^-16 ns. -/
inductive PtpSeen where
  | rx (frame : PtpFrame) (stamp : Int)
  | tx (seqId : BitVec 16) (msgType : BitVec 4) (stamp : Int)
deriving DecidableEq, Repr

/-- How the work of an L bracket ends after 64 SINGLE ticks (R458): its steps are written, a base block proves undeliverable (cause 2), or
a histogram write fails (cause 3). -/
inductive BracketEnd where
  | done | base | hist
deriving DecidableEq, Repr

/-- The causes of the panel-safe sequence, in the order of the bits of PNL.STATUS.CAUSE (R283). -/
inductive SafeCause where
  | host | crackA | crackB | pgLost | pgTimeout | trip
deriving DecidableEq, Repr

/-- The wake sources of R510. -/
inductive WakeSrc where
  | ucie | pin | alarm | timer | thermal
deriving DecidableEq, Repr

/-- What the work of a SLOW command met outside the model: a failed write step (R464), the beats in which a scrub read found errors
(R331), and the pseudo-channels in which the short training of a DOMAIN_RESET failed (R326, R539). -/
structure SlowResult where
  writeFailed : Bool
  ce : List Nat
  ue : List Nat
  trainFail : BitVec 64
deriving DecidableEq, Repr

/-- The commands of the block, one for each row of the table. -/
inductive Instr where
  -- Ihlian commands, each with its command entry
  | nop (c : Cmd)
  | identify (c : Cmd)
  | modeGet (c : Cmd)
  | modeSet (c : Cmd)
  /-- The tick at which a move between FLAT, FIELD and SERVICE, or another running transition, completes (R486, R488). -/
  | modeSwitchAtTick
  | trayConfig (c : Cmd)
  | fwUpdate (c : Cmd)
  | domainReset (c : Cmd)
  | tickWait (c : Cmd)
  | paramGet (c : Cmd)
  | paramSet (c : Cmd)
  | paramInfo (c : Cmd)
  | paramSave (c : Cmd)
  | paramDefaults (c : Cmd)
  | commit (c : Cmd)
  | commitCancel (c : Cmd)
  | stageClear (c : Cmd)
  | expoQuery (c : Cmd)
  | admitTry (c : Cmd)
  | plateOpen (c : Cmd)
  | plateOpenDone (slot : Fin 8)
  | plateSeal (c : Cmd)
  | plateInfo (c : Cmd)
  | ytcLoad (c : Cmd)
  | ppiLoad (c : Cmd)
  | refocusRead (c : Cmd)
  | bracketRun (c : Cmd)
  | bracketStatus (c : Cmd)
  | contactSubmit (c : Cmd)
  | contactStatus (c : Cmd)
  | panelOn (c : Cmd)
  | panelOff (c : Cmd)
  | plRetrain (c : Cmd)
  | sbCfgWrite (c : Cmd)
  | sbCfgRead (c : Cmd)
  | panelRetain (c : Cmd)
  | panelRelease (c : Cmd)
  | dramMap (c : Cmd)
  | dramScrub (c : Cmd)
  | timeGet (c : Cmd)
  | timeAdjust (c : Cmd)
  | ptpConfig (c : Cmd)
  | tsRead (c : Cmd)
  | timedOutput (c : Cmd)
  | thermalRead (c : Cmd)
  | throttleStatus (c : Cmd)
  | powerRead (c : Cmd)
  | nvmRead (c : Cmd)
  | nvmWrite (c : Cmd)
  | counterRead (c : Cmd)
  | logRead (c : Cmd)
  | servicePattern (c : Cmd)
  | serviceCapture (c : Cmd)
  -- IST transactions and the UCIe modules
  | pwr (x : Ist)
  /-- Module m's oldest waiting posted write takes its Fixer slot and write credit (R105). -/
  | apertureSlotTaken (m : Fin 2)
  | rd (x : Ist)
  | doorbell (x : Ist)
  | cret (x : Ist)
  | ucieCreditReturn (m : Fin 2)
  /-- Training of module m settles: its rate code (0, 1, 2 as UCIE_x.STATUS.RATE; any other is unsupported), lane
  repair, reduced width, and the host's initial VC2 and VC3 advertisement (R354, R361). -/
  | ucieLinkUp (m : Fin 2) (rate : Nat) (repaired reduced : Bool) (vc2 vc3 : Nat)
  | ucieLinkDown (m : Fin 2)
  | ucieRetrain (m : Fin 2)
  | flitCrcFail (m : Fin 2)
  /-- UB's window ends (R355): whether its sideband has received the host's first training message in it. -/
  | ubConfigWindowExpire (heard : Bool)
  -- Trays and the firmware
  | commandTaken
  | responseWrite (t : Fin 8)
  | respRingFull (t : Fin 8)
  | heartbeat
  | fwStall
  | dkRestartWrite (v : Word)
  | warmRestart
  -- register accesses
  /-- A direct register write: the parameter ID (R406), the value, and the W1C bits that hardware sets on the same
  clock edge (R16). -/
  | registerWrite (id : Nat) (v : Word) (hwSet : Word)
  | counterLoRead (id : Nat)
  | timebaseReadCapture (blk : Fin 6)
  | tickRunSet
  | tickRunClear
  | rfcForceWrite
  | timedOutputArm (n : Fin 4)
  | bootGo (len : Nat)
  /-- A write to EVU.STATUS_g, with the pulses that arrive in the same clock (R417). -/
  | eventStatusClear (g : Fin 18) (mask : Word) (same : List Pulse)
  /-- A write to EVU.ENABLE_g or EVU.CFG_n, named by its parameter ID (R420). -/
  | eventEnableWrite (id : Nat) (v : Word)
  | eventPulse (p : Pulse)
  | eventMessageSend
  -- the tick and the raster
  | tickFire
  | tickArrival
  | ledgerCheckStrobe
  | linePeriodStart (q : Fin 4)
  | lineSent (q : Fin 4)
  | skipList (q : Fin 4)
  | stripDispatch (q : Fin 4)
  | stripDelivered (e : Fin 96)
  | developerFetch (n : Fin 96) (p : PlaneRef) (blk : Nat)
  -- DRAM
  | dramRequest (pc : Fin 64) (r : DramReq)
  /-- Pseudo-channel pc issues; `blocked` holds the numbers of the requests whose bank timing does not allow them now. -/
  | dramIssue (pc : Fin 64) (blocked : List Nat)
  | dramRetire (pc : Fin 64) (n : Nat) (err : EccErr)
  | requestAged (pc : Fin 64) (n : Nat)
  | ageBound (pc : Fin 64) (n : Nat)
  | refreshInterval (pc : Fin 64) (sid : Fin 8) (bank : Fin 16)
  | bankRefresh (pc : Fin 64) (sid : Fin 8) (bank : Fin 16)
  | retrainPass (d : Fin 32) (lowMargin : Bool)
  | sidPowerDown (sid : Fin 8)
  /-- The patrol reads its next beat; what it finds there counts as beat 0. -/
  | scrubRead (err : EccErr)
  /-- The eight dies' on-die correction counts since the last read. -/
  | odeccRead (counts : List Nat)
  -- Fixer
  /-- Fixer f codes its oldest complete block; `upset` says that a physical upset made the verify read differ (R201). -/
  | fixerCodeBlock (f : Fin 8) (upset : Bool)
  | fixerTokensGranted (f : Fin 8)
  | fixerStoreRetired (f : Fin 8)
  -- Contact and Refocus
  | contactJobStart (x : Fin 2)
  | contactJobComplete (x : Fin 2)
  | ctWaitExpired (x : Fin 2)
  | refocusRebuildDone
  -- the panel
  | plTrainStart (q : Fin 4)
  | plTrainTimeout (q : Fin 4)
  /-- A POLL round of bus q starts: the first POLL of the round stands in the bus's queue (R276). -/
  | sbPoll (q : Fin 4)
  /-- The bytes that come back on bus q in answer to the transaction in progress, from STATUS to the CRC (R273). -/
  | sbResponse (q : Fin 4) (bytes : List Byte)
  | sbTimeout (q : Fin 4)
  | retainFail (q : Fin 4) (chip : Nat)
  /-- The backlight frame for the next raster sub-frame starts; the controller's status byte on MISO (R284). -/
  | blFrameStart (miso : Byte)
  | panelUpRailStep
  | pnlPgRise (i : Fin 4)
  | pgTimeout
  | pgLost (i : Fin 4)
  /-- A crack-loop measurement: loop 0 CRK_A, 1 CRK_B, and the resistance in ohms (R282). -/
  | crackMeasure (loop : Fin 2) (ohms : BitVec 16)
  | panelSafe (cause : SafeCause)
  | panelSafeDischargeEnd
  | panelRailDownStep
  -- network time and timed outputs
  | ptpFrameRx (fr : PtpFrame)
  | ptpTxStamp (seqId : BitVec 16) (msgType : BitVec 4)
  | tsEntryTimeout
  | ptpSyncTimeout
  | timedOutputEdge (n : Fin 4)
  | timedOutputWidthEnd (n : Fin 4)
  | strobeFire (n : Fin 4)
  | strobeWidthEnd (n : Fin 4)
  -- thermal
  /-- One THM update: the 24 meters' mean power in mW and the two diode readings (R467, R468). -/
  | thmUpdate (meters : List Nat) (base stack : Diode)
  | throttleGraceEnd
  | throttleCheck
  | throttleLift
  | thermalTrip
  | tripPageWrite
  | thermalRestart
  -- calibration
  | driveHistogramRead
  | fieldMinute
  /-- The running L bracket ends its work; `histFailed` is cause 3 of R454. -/
  | lBracketDone (how : BracketEnd)
  | lBracketTargetTimeout
  | bracketCountSave (cls : Fin 2)
  -- power
  /-- A domain powers up. For FAB on the way out of self-refresh, the pseudo-channels in which the short training fails (R326). -/
  | domainPowerUp (d : Fin 24) (trainFail : BitVec 64)
  | domainPowerDown (d : Fin 24)
  /-- The sleep request at edge s (R509): whether an enabled WAKE edge falls in s to s + 3, the WAKE pin's level and
  the UCIe wake level at s + 4. -/
  | sleepRequest (pinEdge pinLevel ucie : Bool)
  /-- A wake, with the mask of retention banks whose content has been damaged (R494). -/
  | wake (src : WakeSrc) (bad : BitVec 8)
  /-- The AON timer reaches 0, with the same mask. -/
  | aonTimerExpire (bad : BitVec 8)
  | safelightRefresh
  | brownout
  | nvmPageWriteDone
  -- clocks, resets and start-up; a PLL is its bit of CLK.LOSS (R535)
  | pllLossOfLock (p : Fin 17)
  /-- A PLL locks again; for PLL_DMC, the pseudo-channels in which the short training fails (R326, R534). -/
  | pllRelock (p : Fin 17) (trainFail : BitVec 64)
  | relockTimeout (p : Fin 17)
  | coldReset
  /-- AON power good, with the number of failed fuse reads before a good one (3: none was good). -/
  | aonPowerGood (failedReads : Nat)
  | pwrPgRise (i : Fin 6)
  /-- PWR_PG[i] is missing after its timeout, or, once it has risen, lost while its enable is high (R547). -/
  | supplyFail (i : Fin 6)
  | supplyRetry
  /-- Image verification ends; when it passes, full DRAM training follows, failing in the given pseudo-channels. -/
  | fwImageVerified (trainFail : BitVec 64)
  | fwStart
  | slowCommandDone (c : Cmd) (r : SlowResult)
  | ptpLaneLockChange (up : Bool)
  | pnlPgFall (i : Fin 4)
  | pwrPgFall (i : Fin 6)
  | xtalPresent
  | vauxLoss
deriving DecidableEq, Repr

end Sys2Proof
end

