-- ==== Sys2Proof/Decode.lean ====
section
/-!
DEFINITION. The command that a word of the opcode table spells. The table gives none of its rows any bits, so no word spells one.
-/
namespace Sys2Proof

/-- The command spelled by a word of the given number of bits: no row of the table has bits. -/
def decodeTableWord (_nbits _w : Nat) : Option Instr := none

end Sys2Proof
end

