-- ==== Sys2Proof/Config.lean ====
section
/-!
DEFINITION. What one device fixes and what the spec leaves open: constants without a body, so that no proof can use a value of
theirs (log entries 7 to 13).
-/
namespace Sys2Proof.Config

/-- A free value: the n-th one that a run takes (log entry 1). -/
opaque freeWord : Nat → Word

/-- Fuses: the die stepping (R414), the two key hashes, the revoke bits and the rollback field (R550). -/
opaque stepping : Byte
opaque keyHash : Nat → List Byte
opaque revoked : BitVec 2
opaque rollback : BitVec 64

/-- Versions of the firmware that runs (R551, R575). -/
opaque icsMajor : Byte
opaque icsMinor : Byte
opaque fwVersion : Word
opaque fwBuild : Word

/-- SHA-384 and ECDSA P-384 (R550): public key, signature, message digest. -/
opaque sha384 : List Byte → List Byte
opaque ecdsaVerify : List Byte → List Byte → List Byte → Bool

/-- What DSC 1.2a derives (R250): byte n of the PPS from QW, QH and the bits per pixel in 1/16. -/
opaque dscDerived : Nat → Nat → Nat → Nat → Byte

/-- The DSC 1.2a encoder (R250): the chunk of the last of a slice row's lines so far, from DSC.CTRL.BPP and the lines' 30-bit
pixels. -/
opaque dscChunk : Nat → List (List Word) → List Byte

/-- The fused network of THM (R467, R468), over temperatures in 1/256 degree C and power in mW: the power scale, node-to-node and
node-to-ambient conductances and capacitances, each per update period in us; the weights of the diode predictions; the rounding
of a quotient; and the full scale of each meter (R470). -/
opaque thmPower : Nat → Int
opaque thmCond : Nat → Nat → Int
opaque thmCondAmb : Nat → Int
opaque thmCap : Nat → Nat
opaque thmWeight : Nat → Nat → Int
opaque thmWeightDen : Nat → Nat
opaque thmRound : Int → Nat → Int
opaque meterFull : Nat → Nat

/-- The beats of the stack in whose cells an error arises in a clock, and whether more than one bit goes wrong (R329, R330; log entry 143). -/
opaque upsets : Nat → List (Nat × Bool)

/-- The groups of the NVM in which an error arises in a clock (R518): the page, the group, the group's bytes as stored should it be uncorrectable
from then on, and whether more than one bit goes wrong at once (log entry 143). -/
opaque nvmUpsets : Nat → List (Nat × Nat × Nat × Bool)

/-- What the firmware sets (R422, R494): the retention banks that hold the code of an image of this length, and the event sources that it
handles (log entries 68 and 155). -/
opaque codeBanks : Nat → BitVec 8
opaque fwHandles : Nat → Bool

/-- The 512 KiB that retention bank b of the Darkroom SRAM holds (R493), by the number of the content (log entry 88). -/
opaque bankBytes : Nat → Nat → List Byte

/-- Levels that the spec leaves open (R273, R491; log entry 156), by the time: DA of bus q between requests, and, as number 4, RST_REQ_N. -/
opaque pinLevel : Nat → Nat → Bool

/-- The set of a cluster cache that a slot address falls into (R181; log entry 129). -/
opaque cacheSet : Nat → Nat

/-- The line period number of an ALIGN row outside the line periods (R262, R270), by its slot; and the columns that a driver chip holds
before the YL9720 has written or read its registers 0x02 and 0x03 (R275), by chip and register (log entries 130 and 131). -/
opaque alignPeriod : Nat → Nat
opaque chipColumn : Nat → Nat → Nat

/-- What the PTP protocol and its servo compute (R432, R435; IEEE 1588 is not in the spec): from the settings, whether the lane is up, and
the messages received and sent with their stamps, newest first. The port state, the offset from the master in 2^-16 ns when a frame
completes an exchange, the rate that the servo sets, and the offset of a timestamp entry's exchange. -/
opaque ptpState : List Byte → Bool → List PtpSeen → Nat
opaque ptpOffset : List Byte → List PtpSeen → Option Int
opaque ptpRate : List Byte → List PtpSeen → Int
opaque ptpTsOffset : List Byte → List PtpSeen → Int

/-- The free word read as a number below n (0 when n is 0). -/
def freeBelow (i n : Nat) : Nat := if n = 0 then 0 else (freeWord i).toNat % n

end Sys2Proof.Config
end

