-- ==== Sys2Proof/Machine/Bits.lean ====
section
/-!
DEFINITION. Bit fields, byte order, fixed-point narrowing (R10 to R13), the CRC-32 of R254, the CRC-16 of R275, and sparse maps
held as lists of key and value pairs.
-/
namespace Sys2Proof.Machine

/-- Field [hi:lo] of a word, as a number (R8). -/
def fld (w : Word) (hi lo : Nat) : Nat := (w.toNat / 2 ^ lo) % 2 ^ (hi - lo + 1)

/-- Bit n of a word (R8). -/
def bit (w : Word) (n : Nat) : Bool := w.getLsbD n

/-- The mask of field [hi:lo]. -/
def fldMask (hi lo : Nat) : Word := BitVec.ofNat 32 ((2 ^ (hi - lo + 1) - 1) * 2 ^ lo)

/-- A word with field [hi:lo] replaced; bits of v above the field are ignored (R12). -/
def setFld (w : Word) (hi lo v : Nat) : Word :=
  (w &&& ~~~ fldMask hi lo) ||| (BitVec.ofNat 32 (v * 2 ^ lo) &&& fldMask hi lo)

/-- A bit as a number. -/
def b2n (b : Bool) : Nat := if b then 1 else 0

/-- The lower and the upper word of a 64-bit value (R15). -/
def loWord (n : Nat) : Word := BitVec.ofNat 32 n
def hiWord (n : Nat) : Word := BitVec.ofNat 32 (n / 2 ^ 32)

/-- The number that w bits of a two's complement field hold (R11, R12). -/
def signed (w n : Nat) : Int := let m := n % 2 ^ w
  if m < 2 ^ (w - 1) then (m : Int) else (m : Int) - 2 ^ w

/-- The w-bit two's complement image of a number (R12). -/
def unsigned (w : Nat) (x : Int) : Nat := (x % (2 ^ w : Int)).toNat

/-- floor(x / 2^n) (R13). -/
def shr (x : Int) (n : Nat) : Int := Int.fdiv x (2 ^ n : Int)

/-- x / 2^n rounded to the nearest integer, ties to the even one (R13, rne). -/
def rneShift (x : Int) (n : Nat) : Int :=
  let q := Int.fdiv x (2 ^ n : Int)
  let r2 := 2 * (x - q * 2 ^ n)
  if r2 < 2 ^ n then q else if r2 > 2 ^ n then q + 1 else if q % 2 = 0 then q else q + 1

/-- a / b for b > 0 rounded to the nearest integer, ties to the even one (R13, rne). -/
def rneDiv (a : Int) (b : Nat) : Int :=
  let q := Int.fdiv a b
  let r2 := 2 * (a - q * b)
  if r2 < b then q else if r2 > b then q + 1 else if q % 2 = 0 then q else q + 1

/-- x clamped to [lo, hi] (R13, sat). -/
def clampInt (lo hi x : Int) : Int := if x < lo then lo else if x > hi then hi else x

/-- Division rounded up. -/
def ceilDiv (a b : Nat) : Nat := (a + b - 1) / b

/-- The first n bytes of a value, the least significant first (R10). -/
def leBytes : Nat → Nat → List Byte
  | 0, _ => []
  | n + 1, v => BitVec.ofNat 8 v :: leBytes n (v / 256)

/-- The value of bytes, the first least significant (R10). -/
def leNat : List Byte → Nat
  | [] => 0
  | b :: bs => b.toNat + 256 * leNat bs

/-- Byte i of a list, 0 beyond its end. -/
def byteAt (l : List Byte) (i : Nat) : Byte := l.getD i 0

/-- The n-byte little-endian value at offset i of a list, with 0 beyond its end. -/
def leAt (l : List Byte) (i n : Nat) : Nat := leNat ((List.range n).map fun k => byteAt l (i + k))

/-- A list cut or padded with zeros to n bytes. -/
def padTo (n : Nat) (l : List Byte) : List Byte := (l ++ List.replicate (n - l.length) 0).take n

/-- A field list laid out at given offsets over zeros: each entry is (offset, size, value), little-endian (R10). -/
def layout (n : Nat) (fs : List (Nat × Nat × Nat)) : List Byte :=
  fs.foldl (fun acc f => acc.take f.1 ++ leBytes f.2.1 f.2.2 ++ acc.drop (f.1 + f.2.1)) (List.replicate n 0)

/-- The number of the lowest set bit below n, if any. -/
def lowestBit (m n : Nat) : Option Nat := (List.range n).find? fun i => m.testBit i

/-- Every bit of m below n, in ascending order. -/
def bitsOf (m n : Nat) : List Nat := (List.range n).filter fun i => m.testBit i

/-- The mask with the bits of a list. -/
def maskOf (l : List Nat) : Nat := l.foldl (fun a i => a ||| 2 ^ i) 0

/-! ### CRC -/

/-- One bit of the reflected CRC-32 with polynomial 0x04C1_1DB7 (R254). -/
def crc32Bit (c : Word) : Word := if c.getLsbD 0 then (c >>> 1) ^^^ 0xEDB88320#32 else c >>> 1

/-- One byte into the CRC-32 register. -/
def crc32Byte (c : Word) (b : Byte) : Word :=
  let c := c ^^^ b.setWidth 32
  crc32Bit (crc32Bit (crc32Bit (crc32Bit (crc32Bit (crc32Bit (crc32Bit (crc32Bit c)))))))

/-- The CRC-32 register after bytes. -/
def crc32Bytes (c : Word) (l : List Byte) : Word := l.foldl crc32Byte c

/-- CRC-32 of R254 over bytes: initial value all ones, final inversion. -/
def crc32 (l : List Byte) : Word := ~~~ crc32Bytes 0xFFFFFFFF#32 l

/-- One bit of the CRC-16 with polynomial 0x1021, most significant bit first (R273). -/
def crc16Bit (c : BitVec 16) : BitVec 16 := if c.getLsbD 15 then (c <<< 1) ^^^ 0x1021#16 else c <<< 1

/-- One byte into the CRC-16 register. -/
def crc16Byte (c : BitVec 16) (b : Byte) : BitVec 16 :=
  let c := c ^^^ (b.setWidth 16 <<< 8)
  crc16Bit (crc16Bit (crc16Bit (crc16Bit (crc16Bit (crc16Bit (crc16Bit (crc16Bit c)))))))

/-- The CRC-16 of R273 over bytes: initial value 0xFFFF, no final XOR. -/
def crc16 (l : List Byte) : Nat := (l.foldl crc16Byte 0xFFFF#16).toNat

/-- A 16-bit value, high byte first (R273, R284). -/
def be16 (n : Nat) : List Byte := [BitVec.ofNat 8 (n / 256), BitVec.ofNat 8 n]

/-! ### Sparse maps: keys strictly rising -/

/-- The value listed under a key. -/
def mapFind {α : Type} : List (Nat × α) → Nat → Option α
  | [], _ => none
  | (j, a) :: m, k => if j = k then some a else mapFind m k

/-- List a value under a key, in the place that keeps the keys rising. -/
def mapPut {α : Type} : List (Nat × α) → Nat → α → List (Nat × α)
  | [], k, v => [(k, v)]
  | (j, a) :: m, k, v =>
    if k < j then (k, v) :: (j, a) :: m
    else if k = j then (k, v) :: m
    else (j, a) :: mapPut m k v

/-- Remove a key. -/
def mapDel {α : Type} : List (Nat × α) → Nat → List (Nat × α)
  | [], _ => []
  | (j, a) :: m, k => if j = k then m else (j, a) :: mapDel m k

/-- The value of a key in a map over a default. -/
def mapGet {α : Type} (d : Nat → α) (m : List (Nat × α)) (k : Nat) : α :=
  match mapFind m k with
  | some a => a
  | none => d k

/-- A map over a default with one key set: the default's own value is not listed. -/
def mapSet {α : Type} [DecidableEq α] (d : Nat → α) (m : List (Nat × α)) (k : Nat) (v : α) : List (Nat × α) :=
  if v = d k then mapDel m k else mapPut m k v

/-- Keys strictly rising, all above a bound. -/
def mapSorted {α : Type} : Option Nat → List (Nat × α) → Bool
  | _, [] => true
  | lo, (k, _) :: m => (match lo with | none => true | some b => decide (b < k)) && mapSorted (some k) m

/-- The canonical form of a map over a default: keys strictly rising and no listed default. -/
def mapWf {α : Type} [DecidableEq α] (d : Nat → α) (m : List (Nat × α)) : Bool :=
  mapSorted none m && m.all fun e => decide (e.2 ≠ d e.1)

end Sys2Proof.Machine
end

