-- ==== Sys2Proof/Machine/Catalogue.lean ====
section
/-!
DEFINITION. The register catalogue (R406 to R408, R574): every register of the chapters' tables with its fields, their access
codes (R16), Reset column (R18), classes (R19) and ranges (R572), at its parameter ID. A Reset of "x" is written 0 here
(log entry 6); values loaded from fuses stand in Config.
-/
namespace Sys2Proof.Machine

/-- The access codes of R16. -/
inductive Acc where
  | rw | ro | w1c | wo | rc
deriving DecidableEq, Repr

/-- The classes of R19. -/
inductive Cls where
  | s | t | l
deriving DecidableEq, Repr

/-- How the model holds a register: `held` is the word itself, `count` a 64-bit cumulative counter, `live` a 48-bit counter
read from its snapshot (R67), `image` and `image64` values formed from other state, `snap64` a 64-bit snapshot. -/
inductive RegKind where
  | held | count | live | image | image64 | snap64
deriving DecidableEq, Repr

/-- The owning blocks of the class S fields (R53), as their chapters name them. -/
inductive Owner where
  | none | tickGen | raster | panel | timeUnit | channel | safelight
deriving DecidableEq, Repr

/-- One field of a register. -/
structure Field where
  hi : Nat
  lo : Nat
  name : String
  acc : Acc
  reset : Nat
  cls : Cls
  min : Nat
  max : Nat
deriving DecidableEq, Repr

/-- One register of the catalogue: its name, the parts of its last name around the instance number, its first ID, the
instance dimensions as (count, stride) pairs, and its fields. -/
structure RegDef where
  name : String
  leaf : String
  tail : String
  dig : Option Nat
  letter : Bool
  base : Nat
  dims : List (Nat × Nat)
  kind : RegKind
  owner : Owner
  fields : List Field
deriving DecidableEq, Repr

/-- A field whose range is all its values. -/
def fullField (hi lo : Nat) (name : String) (acc : Acc) (reset : Nat) (cls : Cls) : Field :=
  ⟨hi, lo, name, acc, reset, cls, 0, 2 ^ (hi - lo + 1) - 1⟩

/-- Group 0x00. -/
def cat00a : List RegDef := [
    -- R414
    ⟨"HOST.ID", "ID", "", none, false, 0x0000, [], .image, .none,
      [fullField 31 16 "VENDOR" .ro 0x4e59 .s,
       fullField 15 0 "DEVICE" .ro 0x9720 .s]⟩,
    -- R414
    ⟨"HOST.REV", "REV", "", none, false, 0x0001, [], .image, .none,
      [fullField 23 16 "STEPPING" .ro 0 .s,
       fullField 15 8 "ICS_MAJOR" .ro 0 .l,
       fullField 7 0 "ICS_MINOR" .ro 0 .l]⟩,
    -- R414
    ⟨"HOST.BOOT", "BOOT", "", none, false, 0x0002, [], .image, .none,
      [fullField 23 16 "ERR" .ro 0 .l,
       fullField 15 8 "ATTEMPTS" .ro 0 .l,
       fullField 3 0 "STATE" .ro 0 .l]⟩,
    -- R414
    ⟨"HOST.MODE", "MODE", "", none, false, 0x0003, [], .image, .none,
      [fullField 10 8 "TARGET" .ro 3 .l,
       fullField 7 7 "BUSY" .ro 1 .l,
       fullField 2 0 "MODE" .ro 3 .l]⟩,
    -- R389
    ⟨"DK.HEARTBEAT", "HEARTBEAT", "", none, false, 0x0008, [], .held, .none,
      [fullField 31 0 "COUNT" .ro 0 .l]⟩,
    -- R389
    ⟨"DK.WDOG", "WDOG", "", none, false, 0x0009, [], .held, .none,
      [fullField 31 31 "AUTO" .rw 1 .l,
       ⟨15, 0, "TIMEOUT", .rw, 0xa, .l, 1, 65535⟩]⟩,
    -- R389
    ⟨"DK.RESTART", "RESTART", "", none, false, 0x000A, [], .held, .none,
      [fullField 31 0 "VALUE" .wo 0 .l]⟩,
    -- R414
    ⟨"HOST.TICK", "TICK_", "", none, false, 0x000C, [], .image64, .none,
      [fullField 31 0 "TICK" .ro 0 .t]⟩,
    -- R414
    ⟨"HOST.SNAP_SEQ", "SNAP_SEQ", "", none, false, 0x000E, [], .image, .none,
      [fullField 31 0 "SEQ" .ro 0 .t]⟩]

/-- Group 0x01. -/
def cat01a : List RegDef := [
    -- R376
    ⟨"TRAY.PROGRESS", "PROGRESS", "", none, false, 0x0400, [(8, 16)], .image, .none,
      [fullField 31 16 "RESP_TAIL" .ro 0 .l,
       fullField 15 0 "CMD_HEAD" .ro 0 .l]⟩,
    -- R376
    ⟨"TRAY.HEADS", "HEADS", "", none, false, 0x0401, [(8, 16)], .image, .none,
      [fullField 31 16 "RESP_HEAD" .ro 0 .l,
       fullField 15 0 "CMD_TAIL" .ro 0 .l]⟩,
    -- R376
    ⟨"TRAY.STATUS", "STATUS", "", none, false, 0x0402, [(8, 16)], .image, .none,
      [fullField 19 18 "SLOW" .ro 0 .l,
       fullField 17 17 "OWNER" .ro 0 .l,
       fullField 16 16 "DB_ERR" .w1c 0 .l,
       fullField 8 0 "INFLIGHT" .ro 0 .l]⟩]

/-- Group 0x02. -/
def cat02a : List RegDef := [
    -- R374
    ⟨"UCIE.STATUS", "STATUS", "", none, false, 0x0800, [(2, 32)], .image, .none,
      [fullField 31 30 "STATE" .ro 0 .l,
       fullField 29 28 "RATE" .ro 0 .l,
       fullField 27 27 "CONFIGURED" .ro 0 .l,
       fullField 26 26 "REPAIRED" .ro 0 .l]⟩,
    -- R361
    ⟨"UCIE.HOST_CRED", "HOST_CRED", "", none, false, 0x0801, [(2, 32)], .image, .none,
      [fullField 31 16 "VC3" .ro 0 .l,
       fullField 15 0 "VC2" .ro 0 .l]⟩,
    -- R371
    ⟨"UCIE.ERR_HDR", "ERR_HDR", "", some 1, false, 0x0802, [(2, 32), (4, 1)], .held, .none,
      [fullField 31 0 "HDR" .ro 0 .l]⟩,
    -- R371-R373
    ⟨"UCIE.REPLAYS", "REPLAYS", "", none, false, 0x0806, [(2, 32)], .count, .none,
      [fullField 31 0 "COUNT" .ro 0 .l]⟩,
    -- R371-R373
    ⟨"UCIE.RETRAINS", "RETRAINS", "", none, false, 0x0808, [(2, 32)], .count, .none,
      [fullField 31 0 "COUNT" .ro 0 .l]⟩,
    -- R371-R373
    ⟨"UCIE.MALFORMED", "MALFORMED", "", none, false, 0x080A, [(2, 32)], .count, .none,
      [fullField 31 0 "COUNT" .ro 0 .l]⟩,
    -- R371-R373
    ⟨"UCIE.UR", "UR", "", none, false, 0x080C, [(2, 32)], .count, .none,
      [fullField 31 0 "COUNT" .ro 0 .l]⟩]

/-- Group 0x03. -/
def cat03a : List RegDef := [
    -- R340
    ⟨"LEDGER.STATUS", "STATUS", "", none, false, 0x0C00, [], .held, .none,
      [fullField 31 31 "FAULT" .ro 0 .t,
       fullField 7 6 "COND" .ro 0 .t,
       fullField 5 0 "FIRST" .ro 0 .t]⟩,
    -- R340
    ⟨"LEDGER.FAULT_LO", "FAULT_LO", "", none, false, 0x0C01, [], .held, .none,
      [fullField 31 0 "POOLS" .ro 0 .t]⟩,
    -- R340
    ⟨"LEDGER.FAULT_HI", "FAULT_HI", "", none, false, 0x0C02, [], .held, .none,
      [fullField 12 0 "POOLS" .ro 0 .t]⟩,
    -- R338
    ⟨"LEDGER_k.SNAP_ISSUED", "SNAP_ISSUED", "", none, false, 0x0C10, [(45, 16)], .snap64, .none,
      [fullField 31 0 "COUNT" .ro 0 .t]⟩,
    -- R338
    ⟨"LEDGER_k.SNAP_RETURNED", "SNAP_RETURNED", "", none, false, 0x0C12, [(45, 16)], .snap64, .none,
      [fullField 31 0 "COUNT" .ro 0 .t]⟩,
    -- R338
    ⟨"LEDGER_k.SNAP_PRODUCED", "SNAP_PRODUCED", "", none, false, 0x0C14, [(45, 16)], .snap64, .none,
      [fullField 31 0 "COUNT" .ro 0 .t]⟩,
    -- R338
    ⟨"LEDGER_k.SNAP_DROPPED", "SNAP_DROPPED", "", none, false, 0x0C16, [(45, 16)], .snap64, .none,
      [fullField 31 0 "COUNT" .ro 0 .t]⟩,
    -- R338
    ⟨"LEDGER_k.SNAP_INFLIGHT", "SNAP_INFLIGHT", "", none, false, 0x0C18, [(45, 16)], .held, .none,
      [fullField 15 0 "INFLIGHT" .ro 0 .t]⟩]

/-- Group 0x04, part 1. -/
def cat04a : List RegDef := [
    -- R320,R327,R331
    ⟨"DMC.CTRL", "CTRL", "", none, false, 0x1000, [], .held, .none,
      [⟨21, 16, "AGE_BE", .rw, 32, .l, 1, 48⟩,
       fullField 15 8 "IDLE_PD" .rw 8 .l,
       fullField 0 0 "SCRUB_EN" .rw 1 .l]⟩,
    -- R331
    ⟨"DMC.SCRUB", "SCRUB", "", none, false, 0x1001, [], .held, .none,
      [⟨7, 0, "PERIOD", .rw, 0x18, .l, 1, 255⟩]⟩,
    -- R322,R326,R327
    ⟨"DMC.STATUS", "STATUS", "", none, false, 0x1002, [], .image, .none,
      [fullField 31 30 "STATE" .ro 0 .l,
       fullField 29 29 "REF2X" .ro 0 .l,
       fullField 7 0 "SID_PD" .ro 0 .l]⟩,
    -- R326
    ⟨"DMC.FAIL_LO", "FAIL_LO", "", none, false, 0x1003, [], .held, .none,
      [fullField 31 0 "PC" .ro 0 .l]⟩,
    -- R326
    ⟨"DMC.FAIL_HI", "FAIL_HI", "", none, false, 0x1004, [], .held, .none,
      [fullField 31 0 "PC" .ro 0 .l]⟩,
    -- R334
    ⟨"DMC.BYTES_RTP", "BYTES_RTP", "", none, false, 0x1010, [], .live, .none,
      [fullField 31 0 "COUNT" .ro 0 .t]⟩,
    -- R334
    ⟨"DMC.BYTES_RTU", "BYTES_RTU", "", none, false, 0x1012, [], .live, .none,
      [fullField 31 0 "COUNT" .ro 0 .t]⟩,
    -- R334
    ⟨"DMC.BYTES_RT", "BYTES_RT", "", none, false, 0x1014, [], .live, .none,
      [fullField 31 0 "COUNT" .ro 0 .t]⟩,
    -- R334
    ⟨"DMC.BYTES_MG", "BYTES_MG", "", none, false, 0x1016, [], .live, .none,
      [fullField 31 0 "COUNT" .ro 0 .t]⟩,
    -- R334
    ⟨"DMC.BYTES_BE", "BYTES_BE", "", none, false, 0x1018, [], .live, .none,
      [fullField 31 0 "COUNT" .ro 0 .t]⟩,
    -- R334
    ⟨"DMC.AGED", "AGED", "", none, false, 0x101A, [], .live, .none,
      [fullField 31 0 "COUNT" .ro 0 .t]⟩,
    -- R334
    ⟨"DMC.WAIT_MAX_BE", "WAIT_MAX_BE", "", none, false, 0x101C, [], .live, .none,
      [fullField 31 0 "COUNT" .ro 0 .t]⟩]

/-- Group 0x04, part 2. -/
def cat04b : List RegDef := [
    -- R334
    ⟨"DMC.WAIT_MAX_MG", "WAIT_MAX_MG", "", none, false, 0x101E, [], .live, .none,
      [fullField 31 0 "COUNT" .ro 0 .t]⟩,
    -- R334
    ⟨"DMC.PANIC_LAT_MAX", "PANIC_LAT_MAX", "", none, false, 0x1020, [], .live, .none,
      [fullField 31 0 "COUNT" .ro 0 .t]⟩,
    -- R334
    ⟨"DMC.REF_FORCED", "REF_FORCED", "", none, false, 0x1022, [], .live, .none,
      [fullField 31 0 "COUNT" .ro 0 .t]⟩,
    -- R334
    ⟨"DMC.RETRAIN_PAUSES", "RETRAIN_PAUSES", "", none, false, 0x1024, [], .live, .none,
      [fullField 31 0 "COUNT" .ro 0 .t]⟩,
    -- R334
    ⟨"DMC.RETRAIN_ACTIVE", "RETRAIN_ACTIVE", "", none, false, 0x1026, [], .live, .none,
      [fullField 31 0 "COUNT" .ro 0 .t]⟩,
    -- R331
    ⟨"DMC.SCRUB_PASSES", "SCRUB_PASSES", "", none, false, 0x1030, [], .count, .none,
      [fullField 31 0 "COUNT" .ro 0 .l]⟩,
    -- R311
    ⟨"DMC.ODECC", "ODECC_", "", some 0, false, 0x1040, [(8, 2)], .count, .none,
      [fullField 31 0 "COUNT" .ro 0 .l]⟩]

/-- Group 0x05. -/
def cat05a : List RegDef := [
    -- R329
    ⟨"DC.ERR_INFO", "ERR_INFO", "", none, false, 0x1400, [(32, 16)], .held, .none,
      [fullField 31 31 "UE" .ro 0 .l,
       fullField 30 30 "SCRUB" .ro 0 .l,
       fullField 29 29 "PC" .ro 0 .l,
       fullField 28 26 "SID" .ro 0 .l,
       fullField 25 22 "BANK" .ro 0 .l,
       fullField 21 10 "ROW" .ro 0 .l,
       fullField 9 3 "BEAT" .ro 0 .l]⟩,
    -- R329
    ⟨"DC.ERR_ADDR_LO", "ERR_ADDR_LO", "", none, false, 0x1401, [(32, 16)], .held, .none,
      [fullField 31 0 "ADDR" .ro 0 .l]⟩,
    -- R329
    ⟨"DC.ERR_ADDR_HI", "ERR_ADDR_HI", "", none, false, 0x1402, [(32, 16)], .held, .none,
      [fullField 2 0 "ADDR" .ro 0 .l]⟩,
    -- R329,R330,R325
    ⟨"DC.CE", "CE", "", none, false, 0x1403, [(32, 16)], .count, .none,
      [fullField 31 0 "COUNT" .ro 0 .l]⟩,
    -- R329,R330,R325
    ⟨"DC.UE", "UE", "", none, false, 0x1405, [(32, 16)], .count, .none,
      [fullField 31 0 "COUNT" .ro 0 .l]⟩,
    -- R329,R330,R325
    ⟨"DC.TRAIN_FAIL", "TRAIN_FAIL", "", none, false, 0x1407, [(32, 16)], .count, .none,
      [fullField 31 0 "COUNT" .ro 0 .l]⟩]

/-- Group 0x06. -/
def cat06a : List RegDef := [
    -- R70
    ⟨"EXPO.STATUS", "STATUS", "", none, false, 0x1800, [], .image, .none,
      [fullField 23 16 "HOLD_MASK" .ro 0 .t,
       fullField 15 8 "TRANSP_MASK" .ro 0 .t,
       fullField 7 6 "STOP" .ro 0 .t,
       fullField 5 4 "N_LOG2" .ro 0 .t,
       fullField 3 3 "RASTER_DIV" .ro 0 .t,
       fullField 2 0 "PENDING" .ro 0 .l]⟩,
    -- R70
    ⟨"EXPO.TICK", "TICK_", "", none, false, 0x1801, [], .image64, .none,
      [fullField 31 0 "TICK" .ro 0 .t]⟩,
    -- R70
    ⟨"EXPO.APPLIED", "APPLIED_", "", none, false, 0x1803, [], .image64, .none,
      [fullField 31 0 "TICK" .ro 0 .t]⟩,
    -- R69
    ⟨"EXPO.SNAP_SEQ", "SNAP_SEQ", "", none, false, 0x1805, [], .image, .none,
      [fullField 31 0 "SEQ" .ro 0 .t]⟩,
    -- R44
    ⟨"EXPO.STEER", "STEER", "", none, false, 0x1806, [], .held, .none,
      [fullField 1 0 "N_LOG2" .rw 0 .t]⟩,
    -- R110
    ⟨"EXPO.BLEND", "BLEND", "", none, false, 0x1807, [], .held, .none,
      [⟨31, 28, "COUNT", .rw, 0, .t, 2, 8⟩,
       fullField 27 4 "ORDER" .rw 0 .t,
       fullField 0 0 "MODE" .rw 0 .t]⟩,
    -- R119
    ⟨"TILE.OFFSET_X", "OFFSET_X", "", none, false, 0x1810, [], .held, .none,
      [fullField 31 0 "OFFSET" .rw 0 .t]⟩,
    -- R119
    ⟨"TILE.OFFSET_Y", "OFFSET_Y", "", none, false, 0x1811, [], .held, .none,
      [fullField 31 0 "OFFSET" .rw 0 .t]⟩,
    -- R132
    ⟨"RAYMAP.CTRL", "CTRL", "", none, false, 0x1818, [], .held, .none,
      [fullField 0 0 "RESID_EN" .rw 1 .t]⟩]

/-- Group 0x07. -/
def cat07a : List RegDef := [
    -- R50
    ⟨"TIME_TICK.CTRL", "CTRL", "", none, false, 0x1C00, [], .held, .tickGen,
      [fullField 3 2 "TB" .rw 0 .s,
       fullField 1 1 "WALL" .rw 0 .s,
       fullField 0 0 "RUN" .rw 0 .l]⟩,
    -- R50
    ⟨"TIME_TICK.RATE_NUM", "RATE_NUM", "", none, false, 0x1C01, [], .held, .tickGen,
      [fullField 31 0 "NUM" .rw 0xf0 .s]⟩,
    -- R50
    ⟨"TIME_TICK.RATE_DEN", "RATE_DEN", "", none, false, 0x1C02, [], .held, .tickGen,
      [fullField 31 0 "DEN" .rw 1 .s]⟩,
    -- R48
    ⟨"TIME_TICK.EPOCH_SEC_LO", "EPOCH_SEC_LO", "", none, false, 0x1C03, [], .held, .tickGen,
      [fullField 31 0 "SEC_LO" .rw 0 .s]⟩,
    -- R48
    ⟨"TIME_TICK.EPOCH_SEC_HI", "EPOCH_SEC_HI", "", none, false, 0x1C04, [], .held, .tickGen,
      [fullField 15 0 "SEC_HI" .rw 0 .s]⟩,
    -- R48
    ⟨"TIME_TICK.EPOCH_NS", "EPOCH_NS", "", none, false, 0x1C05, [], .held, .tickGen,
      [⟨31, 0, "NS", .rw, 0, .s, 0, 999999999⟩]⟩,
    -- R48
    ⟨"TIME_TICK.EPOCH_FRAC", "EPOCH_FRAC", "", none, false, 0x1C06, [], .held, .tickGen,
      [fullField 15 0 "FRAC" .rw 0 .s]⟩,
    -- R47
    ⟨"TIME_TICK.SKIPPED", "SKIPPED", "", none, false, 0x1C07, [], .count, .none,
      [fullField 31 0 "COUNT" .ro 0 .l]⟩,
    -- R48
    ⟨"TIME_TICK.BASE", "BASE_", "", none, false, 0x1C09, [], .image64, .none,
      [fullField 31 0 "BASE" .ro 0 .s]⟩]

/-- Group 0x08, part 1. Of PLATE_p.Z, signed 15.16 in [30:0], bit 31 is a reserved bit and reads 0; it is no copy of the sign (log entry
135). -/
def cat08a : List RegDef := [
    -- R91
    ⟨"PLATE.CTRL", "CTRL", "", none, false, 0x2000, [(8, 32)], .held, .none,
      [fullField 13 12 "STEPS" .rw 0 .t,
       fullField 11 11 "YCC_RANGE" .rw 0 .t,
       fullField 10 10 "YCC_MATRIX" .rw 0 .t,
       fullField 9 9 "PREMUL" .rw 0 .t,
       fullField 8 8 "XFER" .rw 0 .t,
       fullField 1 0 "ACTION" .rw 0 .t]⟩,
    -- R91
    ⟨"PLATE.ORIGIN_X", "ORIGIN_X", "", none, false, 0x2001, [(8, 32)], .held, .none,
      [fullField 31 0 "ORIGIN" .rw 0 .t]⟩,
    -- R91
    ⟨"PLATE.ORIGIN_Y", "ORIGIN_Y", "", none, false, 0x2002, [(8, 32)], .held, .none,
      [fullField 31 0 "ORIGIN" .rw 0 .t]⟩,
    -- R91
    ⟨"PLATE.Z", "Z", "", none, false, 0x2003, [(8, 32)], .held, .none,
      [fullField 30 0 "Z" .rw 0 .t]⟩,
    -- R91
    ⟨"PLATE.PITCH_X", "PITCH_X", "", none, false, 0x2004, [(8, 32)], .held, .none,
      [⟨31, 0, "PITCH", .rw, 0x8000, .t, 0x1000, 0x10000000⟩]⟩,
    -- R91
    ⟨"PLATE.PITCH_Y", "PITCH_Y", "", none, false, 0x2005, [(8, 32)], .held, .none,
      [⟨31, 0, "PITCH", .rw, 0x8000, .t, 0x1000, 0x10000000⟩]⟩,
    -- R91
    ⟨"PLATE.ROT", "ROT", "", none, false, 0x2006, [(8, 32)], .held, .none,
      [fullField 31 16 "SIN" .rw 0 .t,
       fullField 15 0 "COS" .rw 0x4000 .t]⟩,
    -- R91
    ⟨"PLATE.RELIEF", "RELIEF", "", none, false, 0x2007, [(8, 32)], .held, .none,
      [fullField 15 0 "DZ" .rw 0 .t]⟩,
    -- R91
    ⟨"PLATE.VIEW_D0", "VIEW_D0", "", none, false, 0x2008, [(8, 32)], .held, .none,
      [fullField 31 16 "DY" .rw 0 .t,
       fullField 15 0 "DX" .rw 0 .t]⟩,
    -- R91
    ⟨"PLATE.VIEW_STEP", "VIEW_STEP", "", none, false, 0x2009, [(8, 32)], .held, .none,
      [fullField 31 16 "DY" .rw 0 .t,
       fullField 15 0 "DX" .rw 0 .t]⟩,
    -- R91
    ⟨"PLATE.MASK_RG", "MASK_RG", "", none, false, 0x200A, [(8, 32)], .held, .none,
      [fullField 31 16 "G" .rw 0xffff .t,
       fullField 15 0 "R" .rw 0xffff .t]⟩,
    -- R91
    ⟨"PLATE.MASK_BA", "MASK_BA", "", none, false, 0x200B, [(8, 32)], .held, .none,
      [fullField 31 16 "A" .rw 0xffff .t,
       fullField 15 0 "B" .rw 0xffff .t]⟩]

/-- Group 0x08, part 2. -/
def cat08b : List RegDef := [
    -- R107
    ⟨"PLATE.STATUS", "STATUS", "", none, false, 0x200C, [(8, 32)], .image, .none,
      [fullField 23 8 "CREDITS" .ro 0 .l,
       fullField 5 3 "BACK" .ro 0 .l,
       fullField 2 2 "FRONT_VALID" .ro 0 .t,
       fullField 1 0 "FRONT_TYPE" .ro 0 .t]⟩,
    -- R101,R104,R106
    ⟨"PLATE.SEALED_DROP", "SEALED_DROP", "", none, false, 0x200D, [(8, 32)], .count, .none,
      [fullField 31 0 "COUNT" .ro 0 .l]⟩,
    -- R101,R104,R106
    ⟨"PLATE.OOB_DROP", "OOB_DROP", "", none, false, 0x200F, [(8, 32)], .count, .none,
      [fullField 31 0 "COUNT" .ro 0 .l]⟩,
    -- R101,R104,R106
    ⟨"PLATE.PARTIAL_BLOCKS", "PARTIAL_BLOCKS", "", none, false, 0x2011, [(8, 32)], .count, .none,
      [fullField 31 0 "COUNT" .ro 0 .l]⟩]

/-- Group 0x09. -/
def cat09a : List RegDef := [
    -- R144
    ⟨"RFC.CTRL", "CTRL", "", none, false, 0x2400, [], .held, .none,
      [fullField 15 8 "THRESH" .rw 0x20 .l,
       fullField 2 2 "FORCE" .wo 0 .l,
       fullField 1 1 "FREEZE" .rw 0 .l,
       fullField 0 0 "ENABLE" .rw 1 .l]⟩,
    -- R144
    ⟨"RFC.STATUS", "STATUS", "", none, false, 0x2401, [], .image, .none,
      [fullField 31 16 "GEN_ACTIVE" .ro 0 .t,
       fullField 4 4 "TEMP_FAULT" .ro 0 .l,
       fullField 3 3 "READY" .ro 0 .l,
       fullField 2 2 "BUSY" .ro 0 .l,
       fullField 1 1 "ACTIVE" .ro 0 .t]⟩,
    -- R144
    ⟨"RFC.SNAP_GEN", "SNAP_GEN", "", none, false, 0x2402, [], .image, .none,
      [fullField 15 0 "GEN" .ro 0 .t]⟩,
    -- R140
    ⟨"RFC.LATE", "LATE", "", none, false, 0x2403, [], .count, .none,
      [fullField 31 0 "COUNT" .ro 0 .l]⟩]

/-- Group 0x0A. -/
def cat0Aa : List RegDef := [
    -- R175
    ⟨"MASK.CTRL", "CTRL", "", none, false, 0x2800, [(4, 64)], .held, .none,
      [fullField 2 2 "DORMANT_EN" .rw 1 .t,
       fullField 1 1 "OCCL_EN" .rw 1 .t,
       fullField 0 0 "TRANSP_EN" .rw 1 .t]⟩,
    -- R175
    ⟨"MASK.STATUS", "STATUS", "", none, false, 0x2801, [(4, 64)], .image, .none,
      [fullField 7 0 "DORMANT" .ro 0 .l]⟩,
    -- R184
    ⟨"MASK.STRIPS", "STRIPS", "", none, false, 0x2802, [(4, 64)], .live, .none,
      [fullField 31 0 "COUNT" .ro 0 .t]⟩,
    -- R184
    ⟨"MASK.TILES_FETCHED", "TILES_FETCHED", "", none, false, 0x2804, [(4, 64)], .live, .none,
      [fullField 31 0 "COUNT" .ro 0 .t]⟩,
    -- R184
    ⟨"MASK.TILES_TRANSP", "TILES_TRANSP", "", none, false, 0x2806, [(4, 64)], .live, .none,
      [fullField 31 0 "COUNT" .ro 0 .t]⟩,
    -- R184
    ⟨"MASK.TILES_OCCL", "TILES_OCCL", "", none, false, 0x2808, [(4, 64)], .live, .none,
      [fullField 31 0 "COUNT" .ro 0 .t]⟩,
    -- R184
    ⟨"MASK.SAMPLES_SAVED", "SAMPLES_SAVED", "", none, false, 0x280A, [(4, 64)], .live, .none,
      [fullField 31 0 "COUNT" .ro 0 .t]⟩,
    -- R184
    ⟨"DISP.STATUS", "STATUS", "", none, false, 0x2820, [(4, 64)], .image, .none,
      [fullField 17 16 "URG" .ro 0 .l,
       fullField 15 8 "TOKENS" .ro 0 .l,
       fullField 4 0 "ENGINES" .ro 0 .l]⟩,
    -- R184
    ⟨"DISP.URGENT_CYCLES", "URGENT_CYCLES", "", none, false, 0x2821, [(4, 64)], .live, .none,
      [fullField 31 0 "COUNT" .ro 0 .t]⟩,
    -- R184
    ⟨"DISP.PANIC_CYCLES", "PANIC_CYCLES", "", none, false, 0x2823, [(4, 64)], .live, .none,
      [fullField 31 0 "COUNT" .ro 0 .t]⟩,
    -- R184
    ⟨"DISP.ABANDONED", "ABANDONED", "", none, false, 0x2825, [(4, 64)], .live, .none,
      [fullField 31 0 "COUNT" .ro 0 .t]⟩]

/-- Group 0x0B. -/
def cat0Ba : List RegDef := [
    -- R163
    ⟨"SAMP.SAMPLES", "SAMPLES", "", none, false, 0x2C00, [(4, 16)], .live, .none,
      [fullField 31 0 "COUNT" .ro 0 .t]⟩,
    -- R163
    ⟨"SAMP.EARLY", "EARLY", "", none, false, 0x2C02, [(4, 16)], .live, .none,
      [fullField 31 0 "COUNT" .ro 0 .t]⟩,
    -- R163
    ⟨"SAMP.MISS", "MISS", "", none, false, 0x2C04, [(4, 16)], .live, .none,
      [fullField 31 0 "COUNT" .ro 0 .t]⟩]

/-- Group 0x0C. -/
def cat0Ca : List RegDef := [
    -- R213
    ⟨"FX.CTRL", "CTRL", "", none, false, 0x3000, [(8, 32)], .held, .none,
      [fullField 4 4 "FORCE_RAW" .rw 0 .l,
       fullField 3 3 "FLAT_EN" .rw 1 .l,
       fullField 2 2 "MED_EN" .rw 1 .l,
       fullField 1 1 "UP_EN" .rw 1 .l,
       fullField 0 0 "LEFT_EN" .rw 1 .l]⟩,
    -- R213
    ⟨"FX.STATUS", "STATUS", "", none, false, 0x3001, [(8, 32)], .image, .none,
      [fullField 5 0 "SLOTS" .ro 0 .l]⟩,
    -- R213
    ⟨"FX.BLOCKS", "BLOCKS", "", none, false, 0x3002, [(8, 32)], .count, .none,
      [fullField 31 0 "COUNT" .ro 0 .l]⟩,
    -- R213
    ⟨"FX.PRED", "PRED", "", none, false, 0x3004, [(8, 32)], .count, .none,
      [fullField 31 0 "COUNT" .ro 0 .l]⟩,
    -- R213
    ⟨"FX.FLAT", "FLAT", "", none, false, 0x3006, [(8, 32)], .count, .none,
      [fullField 31 0 "COUNT" .ro 0 .l]⟩,
    -- R213
    ⟨"FX.RAW", "RAW", "", none, false, 0x3008, [(8, 32)], .count, .none,
      [fullField 31 0 "COUNT" .ro 0 .l]⟩,
    -- R213
    ⟨"FX.FALLBACK", "FALLBACK", "", none, false, 0x300A, [(8, 32)], .count, .none,
      [fullField 31 0 "COUNT" .ro 0 .l]⟩,
    -- R213
    ⟨"FX.MISMATCH", "MISMATCH", "", none, false, 0x300C, [(8, 32)], .count, .none,
      [fullField 31 0 "COUNT" .ro 0 .l]⟩,
    -- R213
    ⟨"FX.STORED_BYTES", "STORED_BYTES", "", none, false, 0x300E, [(8, 32)], .count, .none,
      [fullField 31 0 "COUNT" .ro 0 .l]⟩,
    -- R213
    ⟨"FX.INVALID", "INVALID", "", none, false, 0x3010, [(8, 32)], .count, .none,
      [fullField 31 0 "COUNT" .ro 0 .l]⟩,
    -- R213
    ⟨"FX.UNCORR", "UNCORR", "", none, false, 0x3012, [(8, 32)], .count, .none,
      [fullField 31 0 "COUNT" .ro 0 .l]⟩]

/-- Group 0x0D. -/
def cat0Da : List RegDef := [
    -- R208,R213
    ⟨"DEV.INVALID", "INVALID", "", none, false, 0x3400, [(12, 8)], .count, .none,
      [fullField 31 0 "COUNT" .ro 0 .l]⟩,
    -- R208,R213
    ⟨"DEV.UNCORR", "UNCORR", "", none, false, 0x3402, [(12, 8)], .count, .none,
      [fullField 31 0 "COUNT" .ro 0 .l]⟩]

/-- Group 0x0E. -/
def cat0Ea : List RegDef := [
    -- R215
    ⟨"CORR.CTRL", "CTRL", "", none, false, 0x3800, [], .held, .none,
      [fullField 6 6 "TEMPORAL" .rw 1 .t,
       fullField 5 5 "GRAIN_EN" .rw 1 .t,
       fullField 4 4 "OD_EN" .rw 1 .t,
       fullField 3 3 "DODGE_SET" .rw 0 .t,
       fullField 2 2 "COARSE_EN" .rw 1 .t,
       fullField 1 1 "DODGE_EN" .rw 1 .t,
       fullField 0 0 "MATRIX_EN" .rw 0 .t]⟩,
    -- R216
    ⟨"CORR.MATRIX_0", "MATRIX_0", "", none, false, 0x3801, [], .held, .none,
      [fullField 31 16 "HI" .rw 0 .t,
       fullField 15 0 "LO" .rw 0x2000 .t]⟩,
    -- R216
    ⟨"CORR.MATRIX_1", "MATRIX_1", "", none, false, 0x3802, [], .held, .none,
      [fullField 31 16 "HI" .rw 0 .t,
       fullField 15 0 "LO" .rw 0 .t]⟩,
    -- R216
    ⟨"CORR.MATRIX_2", "MATRIX_2", "", none, false, 0x3803, [], .held, .none,
      [fullField 31 16 "HI" .rw 0 .t,
       fullField 15 0 "LO" .rw 0x2000 .t]⟩,
    -- R216
    ⟨"CORR.MATRIX_3", "MATRIX_3", "", none, false, 0x3804, [], .held, .none,
      [fullField 31 16 "HI" .rw 0 .t,
       fullField 15 0 "LO" .rw 0 .t]⟩,
    -- R216
    ⟨"CORR.MATRIX_4", "MATRIX_4", "", none, false, 0x3805, [], .held, .none,
      [fullField 15 0 "LO" .rw 0x2000 .t]⟩,
    -- R216
    ⟨"CORR.OFFSET_RG", "OFFSET_RG", "", none, false, 0x3806, [], .held, .none,
      [fullField 31 16 "G" .rw 0 .t,
       fullField 15 0 "R" .rw 0 .t]⟩,
    -- R216
    ⟨"CORR.OFFSET_B", "OFFSET_B", "", none, false, 0x3807, [], .held, .none,
      [fullField 15 0 "B" .rw 0 .t]⟩,
    -- R227
    ⟨"OD.CTRL", "CTRL", "", none, false, 0x3810, [], .held, .none,
      [fullField 13 0 "MIN_DELTA" .rw 0x100 .t]⟩,
    -- R230
    ⟨"OD.BOUND", "BOUND_", "", some 0, false, 0x3811, [(4, 1)], .image, .none,
      [fullField 31 16 "UPPER" .ro 0 .s,
       fullField 15 0 "LOWER" .ro 0 .s]⟩]

/-- Group 0x0F. -/
def cat0Fa : List RegDef := [
    -- R230
    ⟨"OD_q.STATUS", "STATUS", "", none, false, 0x3C00, [(4, 32)], .image, .none,
      [fullField 14 13 "STEPS" .ro 0 .t,
       fullField 12 12 "PFS_VALID" .ro 0 .t,
       fullField 11 10 "OLD_LEFT" .ro 0 .t,
       fullField 9 7 "DWELL" .ro 0 .t,
       fullField 6 4 "PREV_BAND" .ro 0 .t,
       fullField 2 0 "BAND" .ro 0 .t]⟩,
    -- R232
    ⟨"CORR_q.OD_ACTIVE", "OD_ACTIVE", "", none, false, 0x3C01, [(4, 32)], .live, .none,
      [fullField 31 0 "COUNT" .ro 0 .t]⟩,
    -- R232
    ⟨"CORR_q.OD_OLDBAND", "OD_OLDBAND", "", none, false, 0x3C03, [(4, 32)], .live, .none,
      [fullField 31 0 "COUNT" .ro 0 .t]⟩,
    -- R232
    ⟨"CORR_q.PFS_BYPASS", "PFS_BYPASS", "", none, false, 0x3C05, [(4, 32)], .live, .none,
      [fullField 31 0 "COUNT" .ro 0 .t]⟩,
    -- R232
    ⟨"CORR_q.DODGE_FAULT", "DODGE_FAULT", "", none, false, 0x3C07, [(4, 32)], .live, .none,
      [fullField 31 0 "COUNT" .ro 0 .t]⟩]

/-- Group 0x10. -/
def cat10a : List RegDef := [
    -- R234
    ⟨"RASTER.SIZE", "SIZE", "", none, false, 0x4000, [], .held, .raster,
      [⟨26, 16, "VBLANK", .rw, 64, .s, 32, 1024⟩,
       ⟨15, 6, "QH", .rw, 512, .s, 1, 512⟩,
       ⟨5, 0, "QW", .rw, 32, .s, 1, 32⟩]⟩,
    -- R236
    ⟨"RASTER.GUARD", "GUARD", "", none, false, 0x4001, [], .held, .raster,
      [⟨15, 0, "GUARD", .rw, 256, .s, 64, 65535⟩]⟩,
    -- R251
    ⟨"DSC.CTRL", "CTRL", "", none, false, 0x4008, [], .held, .none,
      [fullField 1 0 "BPP" .rw 1 .t]⟩,
    -- R251
    ⟨"DSC.PPS", "PPS_", "", some 0, false, 0x4020, [(32, 1)], .image, .none,
      [fullField 31 0 "PPS" .ro 0 .t]⟩]

/-- Group 0x11. -/
def cat11a : List RegDef := [
    -- R248
    ⟨"EASEL.STATUS", "STATUS", "", none, false, 0x4400, [(4, 16)], .image, .none,
      [fullField 31 30 "STATE" .ro 0 .l,
       fullField 29 16 "PERIOD" .ro 0 .l,
       fullField 7 0 "LEAD" .ro 0 .l]⟩,
    -- R243
    ⟨"EASEL.WM", "WM", "", none, false, 0x4401, [(4, 16)], .held, .none,
      [fullField 19 16 "HYST" .rw 4 .l,
       ⟨15, 8, "LOW", .rw, 24, .l, 1, 255⟩,
       ⟨7, 0, "PANIC", .rw, 8, .l, 1, 255⟩]⟩,
    -- R248
    ⟨"EASEL.UNDERRUN_INFO", "UNDERRUN_INFO", "", none, false, 0x4402, [(4, 16)], .held, .none,
      [fullField 31 30 "CAUSE" .ro 0 .l,
       fullField 29 29 "ADMITTED" .ro 0 .l,
       fullField 28 27 "URG" .ro 0 .l,
       fullField 26 14 "LINE" .ro 0 .l,
       fullField 13 8 "PENDING" .ro 0 .l]⟩,
    -- R248
    ⟨"EASEL.UNDERRUNS", "UNDERRUNS", "", none, false, 0x4403, [(4, 16)], .count, .none,
      [fullField 31 0 "COUNT" .ro 0 .l]⟩]

/-- Group 0x12. -/
def cat12a : List RegDef := [
    -- R258
    ⟨"LOUPE.X", "X_", "", some 1, false, 0x4800, [(4, 80), (16, 5)], .held, .none,
      [fullField 31 16 "END" .rw 0 .t,
       fullField 15 0 "START" .rw 0 .t]⟩,
    -- R258
    ⟨"LOUPE.Y", "Y_", "", some 1, false, 0x4801, [(4, 80), (16, 5)], .held, .none,
      [fullField 31 16 "END" .rw 0 .t,
       fullField 15 0 "START" .rw 0 .t]⟩,
    -- R258
    ⟨"LOUPE.CTRL", "CTRL_", "", some 1, false, 0x4802, [(4, 80), (16, 5)], .held, .none,
      [fullField 11 8 "PHASE" .rw 0xf .t,
       fullField 7 4 "STEER" .rw 0xf .t,
       fullField 2 1 "TAP" .rw 0 .t,
       fullField 0 0 "EN" .rw 0 .t]⟩,
    -- R258
    ⟨"LOUPE.EXPECT", "EXPECT_", "", some 1, false, 0x4803, [(4, 80), (16, 5)], .held, .none,
      [fullField 31 0 "CRC" .rw 0 .t]⟩,
    -- R256
    ⟨"LOUPE.CRC", "CRC_", "", some 1, false, 0x4804, [(4, 80), (16, 5)], .held, .none,
      [fullField 31 0 "CRC" .ro 0 .t]⟩,
    -- R256
    ⟨"LOUPE.STATUS", "STATUS", "", none, false, 0x4940, [(4, 1)], .held, .none,
      [fullField 31 16 "DONE" .ro 0 .t,
       fullField 15 0 "MISMATCH" .ro 0 .t]⟩]

/-- Group 0x13. -/
def cat13a : List RegDef := [
    -- R272
    ⟨"PL.CTRL", "CTRL", "", none, false, 0x4C00, [(4, 32)], .held, .none,
      [fullField 3 2 "RATE" .rw 2 .t,
       fullField 1 0 "LANES" .rw 2 .t]⟩,
    -- R272
    ⟨"PL.STATUS", "STATUS", "", none, false, 0x4C01, [(4, 32)], .image, .none,
      [fullField 31 30 "STATE" .ro 0 .l,
       fullField 11 0 "LOCK" .ro 0 .l]⟩,
    -- R272
    ⟨"PL.RETRAINS", "RETRAINS", "", none, false, 0x4C02, [(4, 32)], .count, .none,
      [fullField 31 0 "COUNT" .ro 0 .l]⟩,
    -- R272
    ⟨"PL.DRV_CRC", "DRV_CRC", "", none, false, 0x4C04, [(4, 32)], .count, .none,
      [fullField 31 0 "COUNT" .ro 0 .l]⟩,
    -- R278
    ⟨"SB.CHIPS", "CHIPS", "", none, false, 0x4C10, [(4, 32)], .held, .raster,
      [⟨5, 0, "CHIPS", .rw, 32, .s, 1, 32⟩]⟩,
    -- R274
    ⟨"SB.ERRORS", "ERRORS", "", none, false, 0x4C11, [(4, 32)], .count, .none,
      [fullField 31 0 "COUNT" .ro 0 .l]⟩]

/-- Group 0x14. -/
def cat14a : List RegDef := [
    -- R279
    ⟨"GATE.TIMING", "TIMING", "", none, false, 0x5000, [], .held, .raster,
      [fullField 31 16 "GCK_OFF" .rw 0x230 .s,
       fullField 15 0 "GCK_ON" .rw 0x40 .s]⟩,
    -- R283
    ⟨"PNL.SEQ", "SEQ", "", none, false, 0x5008, [], .held, .panel,
      [fullField 31 24 "DELAY3" .rw 0xa .s,
       fullField 23 16 "DELAY2" .rw 0xa .s,
       fullField 15 8 "DELAY1" .rw 0xa .s,
       fullField 7 0 "DELAY0" .rw 0xa .s]⟩,
    -- R283
    ⟨"PNL.TIMING", "TIMING", "", none, false, 0x5009, [], .held, .panel,
      [fullField 31 16 "PG_TIMEOUT" .rw 0xc8 .s,
       fullField 15 0 "DISCHARGE" .rw 0xc8 .s]⟩,
    -- R283
    ⟨"PNL.STATUS", "STATUS", "", none, false, 0x500A, [], .image, .none,
      [fullField 21 16 "CAUSE" .w1c 0 .l,
       fullField 9 8 "STATE" .ro 0 .l,
       fullField 7 4 "PG" .ro 0 .l,
       fullField 3 0 "EN" .ro 0 .l]⟩,
    -- R282
    ⟨"CRK.CTRL", "CTRL", "", none, false, 0x5010, [], .held, .panel,
      [fullField 1 1 "EN_B" .rw 1 .s,
       fullField 0 0 "EN_A" .rw 1 .s]⟩,
    -- R282
    ⟨"CRK.LIMIT", "LIMIT_", "", some 0, true, 0x5011, [(2, 1)], .held, .panel,
      [fullField 31 16 "HI" .rw 0x7d0 .s,
       fullField 15 0 "LO" .rw 1 .s]⟩,
    -- R282
    ⟨"CRK.VALUE", "VALUE_", "", some 0, true, 0x5013, [(2, 1)], .held, .none,
      [fullField 15 0 "OHMS" .ro 0 .l]⟩]

/-- Group 0x15. -/
def cat15a : List RegDef := [
    -- R286
    ⟨"BL.CTRL", "CTRL", "", none, false, 0x5400, [], .held, .raster,
      [fullField 31 20 "ZONE_LEN" .rw 0 .t,
       fullField 19 12 "STEER_LEN" .rw 0xf .t,
       fullField 11 8 "DIV" .rw 0xb .s,
       ⟨4, 2, "STATES", .rw, 1, .t, 0, 4⟩,
       fullField 0 0 "EN" .rw 0 .t]⟩,
    -- R286
    ⟨"BL.LEAD", "LEAD", "", none, false, 0x5401, [], .held, .raster,
      [⟨31, 0, "LEAD", .rw, 480000, .s, 1200, 599999⟩]⟩,
    -- R286
    ⟨"BL.STEER", "STEER_", "", some 0, false, 0x5500, [(4, 64), (64, 1)], .held, .none,
      [fullField 31 0 "DATA" .rw 0 .t]⟩]

/-- Group 0x16. -/
def cat16a : List RegDef := [
    -- R286
    ⟨"BL.ZONE", "ZONE", "", none, false, 0x5800, [(1024, 1)], .held, .none,
      [fullField 31 0 "DATA" .rw 0 .t]⟩]

/-- Group 0x17. -/
def cat17a : List RegDef := [
    -- R309
    ⟨"CT.CTRL", "CTRL", "", none, false, 0x5C00, [], .held, .none,
      [⟨15, 0, "WAIT_LIMIT", .rw, 16, .l, 1, 65535⟩]⟩,
    -- R309
    ⟨"CT.HOST_LO", "HOST_LO", "", none, false, 0x5C01, [], .image, .none,
      [fullField 26 0 "BASE256" .ro 0 .s]⟩,
    -- R309
    ⟨"CT.HOST_HI", "HOST_HI", "", none, false, 0x5C02, [], .image, .none,
      [fullField 26 0 "BASE256" .ro 0 .s]⟩,
    -- R309
    ⟨"CT_x.STATUS", "STATUS", "", none, false, 0x5C08, [(2, 2)], .image, .none,
      [fullField 9 8 "STATE" .ro 0 .l,
       fullField 5 0 "ENTRIES" .ro 0 .l]⟩,
    -- R304
    ⟨"CT_x.SEQ_DONE", "SEQ_DONE", "", none, false, 0x5C09, [(2, 2)], .held, .none,
      [fullField 31 0 "SEQ" .ro 0xffffffff .l]⟩,
    -- R306
    ⟨"CT.REACH", "REACH_", "", some 0, false, 0x5C10, [(8, 1)], .held, .none,
      [fullField 31 0 "K" .ro 0 .t]⟩,
    -- R309
    ⟨"CT.JOBS", "JOBS", "", none, false, 0x5C20, [], .count, .none,
      [fullField 31 0 "COUNT" .ro 0 .l]⟩,
    -- R309
    ⟨"CT.RMW_BLOCKS", "RMW_BLOCKS", "", none, false, 0x5C22, [], .count, .none,
      [fullField 31 0 "COUNT" .ro 0 .l]⟩,
    -- R309
    ⟨"CT.STORED_BLOCKS", "STORED_BLOCKS", "", none, false, 0x5C24, [], .count, .none,
      [fullField 31 0 "COUNT" .ro 0 .l]⟩,
    -- R309
    ⟨"CT.FAULT_BLOCKS", "FAULT_BLOCKS", "", none, false, 0x5C26, [], .count, .none,
      [fullField 31 0 "COUNT" .ro 0 .l]⟩]

/-- Group 0x18. -/
def cat18a : List RegDef := [
    -- R429
    ⟨"TB.RATE", "RATE", "", none, false, 0x6000, [(4, 64)], .image, .none,
      [fullField 31 0 "RATE" .ro 0 .l]⟩,
    -- R426
    ⟨"TIME.CFG", "CFG", "", none, false, 0x6100, [], .held, .timeUnit,
      [fullField 1 1 "WALL_MEMBER" .rw 0 .s,
       fullField 0 0 "ARR" .rw 0 .s]⟩]

/-- Group 0x19, part 1. -/
def cat19a : List RegDef := [
    -- R437
    ⟨"PTP.CFG", "CFG", "", none, false, 0x6400, [], .held, .none,
      [fullField 31 31 "EN" .ro 0 .s,
       fullField 30 30 "LINE" .ro 0 .s,
       fullField 29 28 "TRANSPORT" .ro 0 .s,
       fullField 27 27 "DELAY" .ro 0 .s,
       fullField 26 26 "SLAVE_ONLY" .ro 0 .s,
       fullField 25 25 "SERVO" .ro 0 .s,
       fullField 24 24 "STEP_EN" .ro 1 .s,
       fullField 23 22 "TB" .ro 0 .s,
       fullField 6 0 "DOMAIN" .ro 0 .s]⟩,
    -- R434
    ⟨"PTP.LAT", "LAT", "", none, false, 0x6401, [], .held, .none,
      [fullField 31 16 "RX" .ro 0 .s,
       fullField 15 0 "TX" .ro 0 .s]⟩,
    -- R435
    ⟨"PTP.STATUS", "STATUS", "", none, false, 0x6402, [], .image, .none,
      [fullField 31 31 "LINK" .ro 0 .l,
       fullField 30 30 "LOCKED" .ro 0 .l,
       fullField 29 27 "STATE" .ro 0 .l]⟩,
    -- R437
    ⟨"PTP.OFFSET", "OFFSET_", "", none, false, 0x6403, [], .image64, .none,
      [fullField 31 0 "OFFSET" .ro 0 .l]⟩,
    -- R433
    ⟨"PTP.RX_DROPPED", "RX_DROPPED", "", none, false, 0x6405, [], .count, .none,
      [fullField 31 0 "COUNT" .ro 0 .l]⟩,
    -- R445
    ⟨"TOUT.PINSEL", "PINSEL", "", none, false, 0x6410, [], .held, .none,
      [fullField 15 12 "PIN3" .rw 6 .l,
       fullField 11 8 "PIN2" .rw 6 .l,
       fullField 7 4 "PIN1" .rw 6 .l,
       fullField 3 0 "PIN0" .rw 6 .l]⟩,
    -- R445
    ⟨"TO.CTRL", "CTRL", "", none, false, 0x6420, [(4, 16)], .held, .channel,
      [fullField 31 31 "ARM" .rw 0 .l,
       fullField 4 4 "POL" .rw 0 .s,
       fullField 3 3 "TARGET" .rw 0 .s,
       fullField 2 1 "TB" .rw 0 .s]⟩,
    -- R445
    ⟨"TO.START_SEC_LO", "START_SEC_LO", "", none, false, 0x6421, [(4, 16)], .held, .channel,
      [fullField 31 0 "SEC_LO" .rw 0 .s]⟩,
    -- R445
    ⟨"TO.START_SEC_HI", "START_SEC_HI", "", none, false, 0x6422, [(4, 16)], .held, .channel,
      [fullField 15 0 "SEC_HI" .rw 0 .s]⟩,
    -- R445
    ⟨"TO.START_NS", "START_NS", "", none, false, 0x6423, [(4, 16)], .held, .channel,
      [⟨31, 0, "NS", .rw, 0, .s, 0, 999999999⟩]⟩,
    -- R445
    ⟨"TO.PERIOD", "PERIOD", "", none, false, 0x6424, [(4, 16)], .held, .channel,
      [fullField 31 0 "NS" .rw 0 .s]⟩,
    -- R445
    ⟨"TO.WIDTH", "WIDTH", "", none, false, 0x6425, [(4, 16)], .held, .channel,
      [fullField 31 0 "NS" .rw 0 .s]⟩]

/-- Group 0x19, part 2. -/
def cat19b : List RegDef := [
    -- R441
    ⟨"TO.MISSED", "MISSED", "", none, false, 0x6426, [(4, 16)], .count, .none,
      [fullField 31 0 "COUNT" .ro 0 .l]⟩,
    -- R444
    ⟨"STB.CTRL", "CTRL", "", none, false, 0x6460, [(4, 4)], .held, .none,
      [⟨23, 8, "WIDTH", .rw, 100, .t, 4, 65535⟩,
       fullField 7 4 "STEER" .rw 0xf .t,
       fullField 0 0 "EN" .rw 0 .t]⟩,
    -- R444
    ⟨"STB.OFFSET", "OFFSET", "", none, false, 0x6461, [(4, 4)], .held, .none,
      [fullField 31 0 "OFFSET" .rw 0 .t]⟩]

/-- Group 0x1A. -/
def cat1Aa : List RegDef := [
    -- R484
    ⟨"THM.CTRL", "CTRL", "", none, false, 0x6800, [], .held, .none,
      [fullField 15 0 "GRACE" .rw 0xc8 .l]⟩,
    -- R484
    ⟨"THM.STATUS", "STATUS", "", none, false, 0x6801, [], .image, .none,
      [fullField 31 30 "STATE" .ro 0 .l,
       fullField 29 28 "STOP" .ro 0 .l,
       fullField 27 26 "PENDING" .ro 0 .l,
       fullField 25 25 "FAST" .ro 0 .l]⟩,
    -- R484
    ⟨"THM.FAULT", "FAULT", "", none, false, 0x6802, [], .image, .none,
      [fullField 25 25 "STACK_DIODE" .ro 0 .l,
       fullField 24 24 "BASE_DIODE" .ro 0 .l,
       fullField 23 0 "NODES" .ro 0 .l]⟩,
    -- R484
    ⟨"THM.DIODE_BASE", "DIODE_BASE", "", none, false, 0x6803, [], .image, .none,
      [fullField 16 16 "FAULT" .ro 0 .l,
       fullField 15 0 "VALUE" .ro 0 .l]⟩,
    -- R484
    ⟨"THM.DIODE_STACK", "DIODE_STACK", "", none, false, 0x6804, [], .image, .none,
      [fullField 16 16 "FAULT" .ro 0 .l,
       fullField 15 0 "VALUE" .ro 0 .l]⟩,
    -- R484
    ⟨"THM.NODE", "NODE_", "", some 0, false, 0x6810, [(24, 1)], .image, .none,
      [fullField 16 16 "FAULT" .ro 0 .l,
       fullField 15 0 "VALUE" .ro 0 .l]⟩]

/-- Group 0x1B, part 1. -/
def cat1Ba : List RegDef := [
    -- R510
    ⟨"PMU.WAKE_CFG", "WAKE_CFG", "", none, false, 0x6C00, [], .held, .none,
      [fullField 13 12 "ALARM_TO" .rw 0 .l,
       fullField 9 8 "WAKE_MODE" .rw 0 .l,
       fullField 4 4 "EN_TIMER" .rw 0 .l,
       fullField 3 3 "EN_ALARM" .rw 0 .l,
       fullField 2 2 "EN_PIN" .rw 0 .l,
       fullField 1 1 "EN_UCIE" .rw 1 .l]⟩,
    -- R510
    ⟨"PMU.WAKE_STATUS", "WAKE_STATUS", "", none, false, 0x6C01, [], .held, .none,
      [fullField 31 31 "WAKE_LOST" .w1c 0 .l,
       fullField 7 4 "LAST_SRC" .ro 0 .l]⟩,
    -- R510
    ⟨"PMU.AON_TIMER", "AON_TIMER", "", none, false, 0x6C02, [], .held, .none,
      [fullField 31 0 "MS" .rw 0 .l]⟩,
    -- R494
    ⟨"PMU.RET", "RET", "", none, false, 0x6C03, [], .held, .none,
      [fullField 31 24 "CODE" .ro 0xff .l,
       fullField 23 16 "FAIL" .ro 0 .l]⟩,
    -- R506
    ⟨"PMU.BOR", "BOR", "", none, false, 0x6C04, [], .held, .none,
      [fullField 31 31 "BOR" .w1c 0 .l,
       fullField 2 0 "MODE" .ro 0 .l]⟩,
    -- R498
    ⟨"PMU.SAFE_POS", "SAFE_POS", "", none, false, 0x6C05, [], .held, .safelight,
      [fullField 31 16 "Y0" .rw 0 .s,
       fullField 15 0 "X0" .rw 0 .s]⟩,
    -- R498
    ⟨"PMU.SAFE_SIZE", "SAFE_SIZE", "", none, false, 0x6C06, [], .held, .safelight,
      [⟨31, 16, "HEIGHT", .rw, 256, .s, 1, 256⟩,
       ⟨15, 0, "WIDTH", .rw, 2048, .s, 1, 2048⟩]⟩,
    -- R500
    ⟨"PMU.SAFE_CTRL", "SAFE_CTRL", "", none, false, 0x6C07, [], .held, .safelight,
      [fullField 8 8 "REP" .rw 1 .s,
       ⟨4, 0, "RATE", .rw, 30, .s, 1, 30⟩]⟩,
    -- R499
    ⟨"PMU.SAFE_IMG_LO", "SAFE_IMG_LO", "", none, false, 0x6C08, [], .held, .safelight,
      [fullField 31 0 "ADDR" .rw 0 .s]⟩,
    -- R499
    ⟨"PMU.SAFE_IMG_HI", "SAFE_IMG_HI", "", none, false, 0x6C09, [], .held, .safelight,
      [fullField 2 0 "ADDR" .rw 0 .s]⟩,
    -- R507
    ⟨"PMU.LATENT_THRESH", "LATENT_THRESH", "", none, false, 0x6C0A, [], .held, .none,
      [fullField 9 0 "THRESH" .rw 0x200 .l]⟩,
    -- R547
    ⟨"PMU.BOOT", "BOOT", "", none, false, 0x6C0B, [], .held, .none,
      [fullField 31 31 "VALID" .w1c 0 .l,
       fullField 9 8 "CAUSE" .ro 0 .l,
       fullField 7 4 "RAIL" .ro 0 .l,
       fullField 1 0 "FAILS" .ro 0 .l]⟩]

/-- Group 0x1B, part 2. -/
def cat1Bb : List RegDef := [
    -- R550
    ⟨"PMU.FUSE_SEC", "FUSE_SEC", "", none, false, 0x6C0C, [], .image, .none,
      [fullField 9 8 "REVOKED" .ro 0 .s,
       fullField 6 0 "SVN_MIN" .ro 0 .s]⟩,
    -- R535
    ⟨"CLK.LOSS", "LOSS", "", none, false, 0x6C10, [], .held, .none,
      [fullField 16 0 "PLL" .w1c 0 .l]⟩,
    -- R535
    ⟨"CLK.LOCK", "LOCK", "", none, false, 0x6C11, [], .image, .none,
      [fullField 16 0 "PLL" .ro 0 .l]⟩,
    -- R533
    ⟨"CLK.RELOCKS", "RELOCKS", "", none, false, 0x6C12, [], .count, .none,
      [fullField 31 0 "COUNT" .ro 0 .l]⟩]

/-- Group 0x1C. -/
def cat1Ca : List RegDef := [
    -- R520
    ⟨"NVM.PROTECT", "PROTECT", "", none, false, 0x7000, [], .held, .none,
      [fullField 2 2 "BP_LOCK" .rw 0 .l,
       fullField 1 0 "BP" .rw 1 .l]⟩,
    -- R520
    ⟨"NVM.STATUS", "STATUS", "", none, false, 0x7001, [], .image, .none,
      [fullField 31 31 "BUSY" .ro 0 .l,
       fullField 30 30 "WRITER" .ro 0 .l,
       fullField 11 0 "PAGE" .ro 0 .l]⟩,
    -- R520
    ⟨"NVM.WRITES", "WRITES", "", none, false, 0x7002, [], .count, .none,
      [fullField 31 0 "COUNT" .ro 0 .l]⟩,
    -- R520
    ⟨"NVM.TORN_SEEN", "TORN_SEEN", "", none, false, 0x7004, [], .count, .none,
      [fullField 31 0 "COUNT" .ro 0 .l]⟩,
    -- R520
    ⟨"NVM.PROT_REFUSED", "PROT_REFUSED", "", none, false, 0x7006, [], .count, .none,
      [fullField 31 0 "COUNT" .ro 0 .l]⟩]

/-- Group 0x1D. -/
def cat1Da : List RegDef := [
    -- R416
    ⟨"EVU.STATUS", "STATUS_", "", some 0, false, 0x7400, [(18, 4)], .held, .none,
      [fullField 31 0 "STATUS" .w1c 0 .l]⟩,
    -- R418
    ⟨"EVU.ENABLE", "ENABLE_", "", some 0, false, 0x7401, [(18, 4)], .held, .none,
      [fullField 31 0 "ENABLE" .rw 0 .l]⟩,
    -- R418
    ⟨"EVU.PENDING", "PENDING_", "", some 0, false, 0x7402, [(18, 4)], .image, .none,
      [fullField 31 0 "PENDING" .ro 0 .l]⟩,
    -- R421
    ⟨"EVU.LOST", "LOST_", "", some 0, false, 0x7403, [(18, 4)], .held, .none,
      [fullField 31 0 "LOST" .w1c 0 .l]⟩,
    -- R418
    ⟨"EVU.SUMMARY", "SUMMARY", "", none, false, 0x7448, [], .image, .none,
      [fullField 17 0 "GROUPS" .ro 0 .l]⟩,
    -- R423
    ⟨"EVU.FATAL", "FATAL", "", none, false, 0x7449, [], .held, .none,
      [fullField 31 31 "VALID" .w1c 0 .l,
       fullField 9 0 "SOURCE" .ro 0 .l]⟩,
    -- R420
    ⟨"EVU.CFG", "CFG_", "", some 0, false, 0x7500, [(576, 1)], .held, .none,
      [fullField 9 8 "SEV" .ro 0 .s,
       fullField 7 7 "FW" .ro 0 .l,
       fullField 6 6 "HOST" .rw 0 .l,
       fullField 5 0 "VEC" .rw 0 .l]⟩]

/-- Group 0x1E. -/
def cat1Ea : List RegDef := [
    -- R456
    ⟨"CAL.CTRL", "CTRL", "", none, false, 0x7800, [], .held, .none,
      [fullField 15 8 "L_GAP" .rw 0xa .l,
       fullField 1 1 "L_TEMP" .rw 1 .l,
       fullField 0 0 "L_EN" .rw 1 .l]⟩,
    -- R456
    ⟨"CAL.STATUS", "STATUS", "", none, false, 0x7801, [], .image, .none,
      [fullField 31 30 "PROFILE" .ro 0 .l,
       fullField 29 29 "LOADING" .ro 0 .l,
       fullField 28 28 "L_BUSY" .ro 0 .l,
       fullField 27 27 "L_SET" .ro 0 .l,
       fullField 26 26 "CLIPPED" .ro 0 .l,
       fullField 11 0 "L_MIN" .ro 0 .l]⟩,
    -- R455
    ⟨"CAL.G_COUNT", "G_COUNT", "", none, false, 0x7802, [], .image, .none,
      [fullField 31 0 "COUNT" .ro 0 .l]⟩,
    -- R455
    ⟨"CAL.G_TIME_SEC_LO", "G_TIME_SEC_LO", "", none, false, 0x7803, [], .image, .none,
      [fullField 31 0 "SEC_LO" .ro 0 .l]⟩,
    -- R455
    ⟨"CAL.G_TIME_SEC_HI", "G_TIME_SEC_HI", "", none, false, 0x7804, [], .image, .none,
      [fullField 31 31 "VALID" .ro 0 .l,
       fullField 30 30 "NETLOCK" .ro 0 .l,
       fullField 15 0 "SEC_HI" .ro 0 .l]⟩,
    -- R455
    ⟨"CAL.G_TIME_NS", "G_TIME_NS", "", none, false, 0x7805, [], .image, .none,
      [fullField 31 0 "NS" .ro 0 .l]⟩,
    -- R455
    ⟨"CAL.L_COUNT", "L_COUNT", "", none, false, 0x7806, [], .image, .none,
      [fullField 31 0 "COUNT" .ro 0 .l]⟩,
    -- R455
    ⟨"CAL.L_TIME_SEC_LO", "L_TIME_SEC_LO", "", none, false, 0x7807, [], .image, .none,
      [fullField 31 0 "SEC_LO" .ro 0 .l]⟩,
    -- R455
    ⟨"CAL.L_TIME_SEC_HI", "L_TIME_SEC_HI", "", none, false, 0x7808, [], .image, .none,
      [fullField 31 31 "VALID" .ro 0 .l,
       fullField 30 30 "NETLOCK" .ro 0 .l,
       fullField 15 0 "SEC_HI" .ro 0 .l]⟩,
    -- R455
    ⟨"CAL.L_TIME_NS", "L_TIME_NS", "", none, false, 0x7809, [], .image, .none,
      [fullField 31 0 "NS" .ro 0 .l]⟩]

/-- Group 0x1F. -/
def cat1Fa : List RegDef := [
    -- R408,R416
    ⟨"EVU.CAP_n_LO", "CAP_", "_LO", some 9, false, 0x7C00, [(3, 1024), (192, 4)], .held, .none,
      [fullField 31 0 "LO" .ro 0 .l]⟩,
    -- R408,R416
    ⟨"EVU.CAP_n_HI", "CAP_", "_HI", some 9, false, 0x7C01, [(3, 1024), (192, 4)], .held, .none,
      [fullField 31 0 "HI" .ro 0 .l]⟩,
    -- R408,R416
    ⟨"EVU.CAP_n_TICK", "CAP_", "_TICK", some 9, false, 0x7C02, [(3, 1024), (192, 4)], .held, .none,
      [fullField 31 0 "TICK" .ro 0 .l]⟩,
    -- R408,R416
    ⟨"EVU.CAP_n_COUNT", "CAP_", "_COUNT", some 9, false, 0x7C03, [(3, 1024), (192, 4)], .held, .none,
      [fullField 7 0 "COUNT" .ro 0 .l]⟩]

/-- The registers of one group (R21: bits [15:10] of an ID). -/
def groupDefs (g : Nat) : List RegDef :=
  match g with
  | 0x00 => cat00a
  | 0x01 => cat01a
  | 0x02 => cat02a
  | 0x03 => cat03a
  | 0x04 => cat04a ++ cat04b
  | 0x05 => cat05a
  | 0x06 => cat06a
  | 0x07 => cat07a
  | 0x08 => cat08a ++ cat08b
  | 0x09 => cat09a
  | 0x0A => cat0Aa
  | 0x0B => cat0Ba
  | 0x0C => cat0Ca
  | 0x0D => cat0Da
  | 0x0E => cat0Ea
  | 0x0F => cat0Fa
  | 0x10 => cat10a
  | 0x11 => cat11a
  | 0x12 => cat12a
  | 0x13 => cat13a
  | 0x14 => cat14a
  | 0x15 => cat15a
  | 0x16 => cat16a
  | 0x17 => cat17a
  | 0x18 => cat18a
  | 0x19 => cat19a ++ cat19b
  | 0x1A => cat1Aa
  | 0x1B => cat1Ba ++ cat1Bb
  | 0x1C => cat1Ca
  | 0x1D => cat1Da
  | 0x1E => cat1Ea
  | 0x1F => cat1Fa
  -- the captures of groups 0x1F to 0x21 are one array (R408)
  | 0x20 => cat1Fa
  | 0x21 => cat1Fa
  | _ => []

/-- Is the register's value wider than 32 bits, so that it has two IDs (R574)? -/
def RegDef.wide (d : RegDef) : Bool :=
  match d.kind with
  | .count | .live | .image64 | .snap64 => true
  | .held | .image => false

/-- Walk the instance dimensions: what remains of an index, and the instance numbers. -/
def walkDims : List (Nat × Nat) → Nat → List Nat → Option (List Nat × Nat)
  | [], r, acc => some (acc.reverse, r)
  | (c, st) :: ds, r, acc => if r / st < c then walkDims ds (r % st) (r / st :: acc) else none

/-- A register found at an ID: its definition, its instance numbers, whether the ID is the upper word, and the ID of the
lower word. -/
structure Found where
  d : RegDef
  inst : List Nat
  upper : Bool
  lowId : Nat
deriving DecidableEq, Repr

/-- Does a definition hold an ID? -/
def RegDef.at? (d : RegDef) (id : Nat) : Option Found :=
  if id < d.base then none else
  match walkDims d.dims (id - d.base) [] with
  | some (inst, 0) => some ⟨d, inst, false, id⟩
  | some (inst, 1) => if d.wide then some ⟨d, inst, true, id - 1⟩ else none
  | _ => none

/-- The register at a parameter ID (R406, R407); none where the catalogue holds none. -/
def findReg (id : Nat) : Option Found :=
  if id < 0x8800 then (groupDefs (id / 1024)).findSome? fun d => d.at? id else none

/-- The Reset column of a register as a word. -/
def RegDef.resetCol (d : RegDef) : Word :=
  d.fields.foldl (fun w f => setFld w f.hi f.lo f.reset) 0

/-- The fatal sources (R415). -/
def fatalSource (n : Nat) : Bool := n == 96 || n == 192 || n == 466 || n == 467 || n == 547

/-- The sources that are not reserved, as runs of one severity (R415 and the event tables of the chapters: R287, R335, R352, R405 and
others): first, last, step, severity (0 info, 1 warn, 2 error, 3 fatal). -/
def sourceRuns : List (Nat × Nat × Nat × Nat) := [
  (0, 0, 1, 0), (1, 1, 1, 2), (2, 2, 1, 0), (4, 4, 1, 1), (32, 33, 1, 1),
  (34, 34, 1, 2), (35, 35, 1, 1), (36, 36, 1, 0), (64, 65, 1, 0), (66, 67, 1, 2),
  (68, 69, 1, 0), (70, 71, 1, 2), (72, 73, 1, 1), (96, 96, 1, 3), (97, 97, 1, 1),
  (128, 190, 2, 1), (129, 191, 2, 2), (192, 192, 1, 3), (193, 193, 1, 1), (195, 195, 1, 0),
  (196, 196, 1, 2), (197, 197, 1, 0), (198, 198, 1, 2), (224, 244, 4, 1), (256, 276, 4, 1),
  (288, 288, 1, 0), (289, 296, 1, 1), (297, 298, 1, 0), (299, 300, 1, 1), (301, 302, 1, 0),
  (320, 322, 1, 2), (323, 323, 1, 0), (324, 324, 1, 1), (352, 400, 16, 2), (353, 401, 16, 1),
  (360, 408, 16, 0), (361, 409, 16, 1), (362, 410, 16, 1), (416, 419, 1, 2), (420, 423, 1, 0),
  (448, 451, 1, 2), (452, 455, 1, 0), (456, 463, 1, 1), (464, 465, 1, 2), (466, 467, 1, 3),
  (468, 469, 1, 0), (470, 470, 1, 2), (471, 471, 1, 1), (472, 472, 1, 2), (473, 473, 1, 0),
  (474, 474, 1, 2), (480, 481, 1, 0), (482, 482, 1, 1), (483, 483, 1, 2), (484, 484, 1, 0),
  (512, 514, 1, 1), (515, 515, 1, 0), (516, 517, 1, 1), (544, 546, 1, 1), (547, 547, 1, 3),
  (548, 548, 1, 2), (549, 549, 1, 0), (550, 550, 1, 2), (551, 551, 1, 1), (552, 552, 1, 2),
  (553, 553, 1, 1), (554, 555, 1, 0), (556, 556, 1, 1), (557, 557, 1, 2)]

/-- The severity of a source (R415), none for a reserved source. -/
def severity? (n : Nat) : Option Nat :=
  (sourceRuns.find? fun r => r.1 ≤ n && n ≤ r.2.1 && (n - r.1) % r.2.2.1 == 0).map fun r => r.2.2.2

/-- The severity of a source, reading 0 where it is reserved. -/
def severity (n : Nat) : Nat := (severity? n).getD 0

/-- The value of a held register after reset: its Reset column, with the event unit's per-source values (R415, R418,
R420). -/
def resetWord (id : Nat) : Word :=
  match findReg id with
  | none => 0
  | some f =>
    if f.d.base = 0x7401 then
      let g := f.inst.headD 0
      BitVec.ofNat 32 (maskOf ((List.range 32).filter fun i => fatalSource (32 * g + i)))
    else if f.d.base = 0x7500 then
      let n := f.inst.headD 0
      BitVec.ofNat 32 (severity n * 2 ^ 8 + b2n (fatalSource n) * 2 ^ 6 + n / 32)
    else f.d.resetCol

/-- The bits of a register with a given access code. -/
def RegDef.accMask (d : RegDef) (p : Acc → Bool) : Word :=
  d.fields.foldl (fun w f => if p f.acc then w ||| fldMask f.hi f.lo else w) 0

/-- The writable bits of a register with a given class (R19). -/
def RegDef.clsMask (d : RegDef) (c : Cls) : Word :=
  d.fields.foldl (fun w f => if f.cls = c ∧ (f.acc = .rw ∨ f.acc = .w1c ∨ f.acc = .wo) then w ||| fldMask f.hi f.lo else w) 0

/-- Is v a value that field f takes (R396, R572)? -/
def Field.takes (f : Field) (v : Nat) : Bool := f.min ≤ v && v ≤ f.max

/-- Does a word keep every RW field of a register inside its range (R572)? -/
def RegDef.inRange (d : RegDef) (w : Word) : Bool :=
  d.fields.all fun f => f.acc ≠ .rw || f.takes (fld w f.hi f.lo)

/-- The class that PARAM_INFO reports (R411): the highest among the writable fields in the order T, S, L. -/
def RegDef.infoClass (d : RegDef) : Nat :=
  if d.clsMask .t ≠ 0 then 2 else if d.clsMask .s ≠ 0 then 1 else if d.clsMask .l ≠ 0 then 3 else 0

/-- The access that PARAM_INFO reports (R411): RW, W1C, WO, RC, RO from most to least permissive. -/
def RegDef.infoAcc (d : RegDef) : Nat :=
  let has (a : Acc) : Bool := d.fields.any fun f => f.acc = a
  if has .rw then 0 else if has .w1c then 2 else if has .wo then 3 else if has .rc then 4 else 1

/-- Registers of 32 bits that hold one wider value in a pair named _LO and _HI (R15, R411): the first IDs of the lower and of the upper
one, and the bits of the value (log entry 28). -/
def pairs : List (Nat × Nat × Nat) :=
  [(0x0C01, 0x0C02, 45), (0x1003, 0x1004, 64), (0x1401, 0x1402, 35), (0x1C03, 0x1C04, 48), (0x6421, 0x6422, 48),
   (0x6C08, 0x6C09, 35), (0x7803, 0x7804, 48), (0x7807, 0x7808, 48)]

/-- UPPER of PARAM_INFO (R411). -/
def Found.isUpper (f : Found) : Bool := f.upper || pairs.any fun p => p.2.1 == f.d.base

/-- The number of bits of the whole value (R411): up to its highest field, 48 for a live counter and 64 for any other
two-word value (log entry 28). -/
def RegDef.width (d : RegDef) : Nat :=
  match d.kind with
  | .live => 48
  | .count | .image64 | .snap64 => 64
  | .held | .image =>
    match pairs.find? fun p => p.1 == d.base || p.2.1 == d.base with
    | some p => p.2.2
    | none => d.fields.foldl (fun m f => max m (f.hi + 1)) 1

/-- Is every field of the register a class T read-only field, so that it is read from a snapshot bank (R410)? -/
def RegDef.snapshotReg (d : RegDef) : Bool := d.fields.all fun f => f.cls = .t && f.acc = .ro

/-- The next ID above a given one that the catalogue holds (R411). The walk visits one ID per step. -/
def nextId : Nat → Nat → Nat
  | 0, _ => 0xFFFF
  | n + 1, id => if (findReg (id + 1)).isSome then id + 1 else nextId n (id + 1)

end Sys2Proof.Machine
end

