-- ==== Sys2Proof/Machine/Operands.lean ====
section
/-!
DEFINITION. Operand forms: the fields of a command entry (R380), the command table (R403), the fields of an IST header (R358,
R370), and the parameter IDs of the registers that the meanings read and write (R406, R574).
-/
namespace Sys2Proof

open Machine

/-! ### Command entries (R380) -/

def Cmd.opcode (c : Cmd) : Nat := leAt c.entry 0 2
def Cmd.tag (c : Cmd) : Nat := leAt c.entry 2 2
def Cmd.cls (c : Cmd) : Nat := leAt c.entry 4 1 % 4
def Cmd.ordered (c : Cmd) : Bool := (leAt c.entry 4 1).testBit 2
def Cmd.len (c : Cmd) : Nat := leAt c.entry 5 1
def Cmd.queue (c : Cmd) : Nat := leAt c.entry 6 2
def Cmd.target (c : Cmd) : Nat := leAt c.entry 8 8

/-- The 48 payload bytes; bytes beyond LEN are ignored (R380) and read 0. -/
def Cmd.payload (c : Cmd) : List Byte := padTo 48 ((c.entry.drop 16).take c.len)

/-- The n-byte field at an offset of the payload. -/
def Cmd.arg (c : Cmd) (off n : Nat) : Nat := leAt c.payload off n

/-! ### IST headers (R358, R370): 16 bytes -/

def Ist.h (x : Ist) (off n : Nat) : Nat := leAt x.hdr off n

end Sys2Proof

namespace Sys2Proof.Machine

/-- A target index that means the next tick, or the first tick that fits (R57, R400). -/
def wildTarget : Nat := 2 ^ 64 - 1

/-- One row of the command table (R403): opcode, class, T0, the range of LEN, and the modes in which it is allowed, as a mask by
the codes of HOST.MODE: 8 stands for STANDBY beside FLAT, FIELD and SERVICE, 0 for these three, 64 for SERVICE alone. -/
structure CmdRow where
  op : Nat
  cls : Nat
  t0 : Bool
  lenMin : Nat
  lenMax : Nat
  more : Nat
deriving DecidableEq, Repr

/-- The command table (R403). In STANDBY, COMMIT passes check 6 and is refused with MODE (R487, R82), and CONTACT_SUBMIT passes it and is
refused with CT_MODE (R308, log entry 123). -/
def cmdTable : List CmdRow := [
  ⟨0x0001, 0, false, 0, 0, 8⟩, ⟨0x0002, 0, false, 0, 0, 8⟩, ⟨0x0003, 0, false, 0, 0, 8⟩, ⟨0x0004, 2, true, 1, 1, 8⟩,
  ⟨0x0005, 0, true, 1, 1, 8⟩, ⟨0x0006, 2, true, 16, 16, 8⟩, ⟨0x0007, 2, true, 1, 1, 0⟩, ⟨0x0008, 1, false, 0, 0, 0⟩,
  ⟨0x0101, 0, false, 4, 15, 8⟩, ⟨0x0102, 0, false, 16, 48, 8⟩, ⟨0x0103, 0, false, 2, 2, 8⟩, ⟨0x0104, 2, true, 8, 8, 8⟩,
  ⟨0x0105, 2, true, 8, 8, 8⟩, ⟨0x0201, 1, false, 8, 8, 8⟩, ⟨0x0202, 0, false, 8, 8, 0⟩, ⟨0x0203, 0, false, 0, 0, 0⟩,
  ⟨0x0204, 0, false, 0, 0, 0⟩, ⟨0x0205, 2, false, 8, 8, 0⟩, ⟨0x0301, 2, false, 32, 32, 0⟩, ⟨0x0302, 0, false, 1, 1, 0⟩,
  ⟨0x0303, 0, false, 1, 2, 0⟩, ⟨0x0304, 2, false, 24, 24, 0⟩, ⟨0x0401, 2, false, 16, 16, 0⟩, ⟨0x0402, 2, false, 16, 16, 0⟩,
  ⟨0x0403, 2, false, 1, 1, 0⟩, ⟨0x0404, 0, false, 1, 1, 0⟩, ⟨0x0501, 0, false, 48, 48, 8⟩, ⟨0x0502, 0, false, 1, 1, 0⟩,
  ⟨0x0601, 2, false, 0, 0, 0⟩, ⟨0x0602, 2, false, 0, 0, 0⟩, ⟨0x0603, 2, false, 1, 1, 0⟩, ⟨0x0604, 2, false, 8, 8, 0⟩,
  ⟨0x0605, 2, false, 3, 3, 0⟩, ⟨0x0606, 2, true, 2, 2, 0⟩, ⟨0x0607, 2, false, 0, 0, 0⟩, ⟨0x0701, 0, false, 1, 1, 0⟩,
  ⟨0x0702, 2, false, 16, 16, 0⟩, ⟨0x0801, 0, false, 1, 1, 0⟩, ⟨0x0802, 0, false, 16, 16, 0⟩, ⟨0x0803, 2, true, 32, 32, 0⟩,
  ⟨0x0804, 0, false, 0, 0, 0⟩, ⟨0x0805, 0, false, 32, 32, 0⟩, ⟨0x0901, 2, false, 16, 16, 0⟩, ⟨0x0902, 0, false, 0, 0, 0⟩,
  ⟨0x0903, 0, false, 4, 4, 0⟩, ⟨0x0A01, 2, false, 16, 16, 8⟩, ⟨0x0A02, 2, true, 16, 16, 8⟩, ⟨0x0A03, 0, false, 1, 1, 8⟩,
  ⟨0x0A04, 2, false, 16, 16, 8⟩, ⟨0x0B01, 2, true, 16, 16, 64⟩, ⟨0x0B02, 2, true, 16, 16, 64⟩]

/-- Is the row's command allowed in a mode of the given code? -/
def CmdRow.allowed (r : CmdRow) (code : Nat) : Bool := (if r.more = 64 then 64 else r.more ||| 0x70).testBit code

def findCmd (op : Nat) : Option CmdRow := cmdTable.find? fun r => r.op == op

/-! ### Parameter IDs -/

abbrev idHeartbeat : Nat := 0x0008
abbrev idWdog : Nat := 0x0009
abbrev idRestart : Nat := 0x000A
abbrev idErrHdr (m i : Nat) : Nat := 0x0802 + 32 * m + i
abbrev idReplays (m : Nat) : Nat := 0x0806 + 32 * m
abbrev idRetrains (m : Nat) : Nat := 0x0808 + 32 * m
abbrev idMalformed (m : Nat) : Nat := 0x080A + 32 * m
abbrev idUr (m : Nat) : Nat := 0x080C + 32 * m
abbrev idLedStatus : Nat := 0x0C00
abbrev idLedFaultLo : Nat := 0x0C01
abbrev idLedFaultHi : Nat := 0x0C02
abbrev idLedSnap (k i : Nat) : Nat := 0x0C10 + 16 * k + 2 * i
abbrev idLedInflight (k : Nat) : Nat := 0x0C18 + 16 * k
abbrev idDmcCtrl : Nat := 0x1000
abbrev idScrub : Nat := 0x1001
abbrev idDmcFailLo : Nat := 0x1003
abbrev idDmcFailHi : Nat := 0x1004
/-- The live byte counter of a class (R334), in the order RT-P, RT-U, RT, MG, BE. -/
abbrev idDmcBytes (cls : Nat) : Nat := 0x1010 + 2 * cls
abbrev idDmcAged : Nat := 0x101A
abbrev idWaitMaxBe : Nat := 0x101C
abbrev idWaitMaxMg : Nat := 0x101E
abbrev idPanicLat : Nat := 0x1020
abbrev idRefForced : Nat := 0x1022
abbrev idRetrainPauses : Nat := 0x1024
abbrev idRetrainActive : Nat := 0x1026
abbrev idScrubPasses : Nat := 0x1030
abbrev idOdecc (s : Nat) : Nat := 0x1040 + 2 * s
abbrev idErrInfo (d : Nat) : Nat := 0x1400 + 16 * d
abbrev idErrAddrLo (d : Nat) : Nat := 0x1401 + 16 * d
abbrev idErrAddrHi (d : Nat) : Nat := 0x1402 + 16 * d
abbrev idDcCe (d : Nat) : Nat := 0x1403 + 16 * d
abbrev idDcUe (d : Nat) : Nat := 0x1405 + 16 * d
abbrev idTrainFail (d : Nat) : Nat := 0x1407 + 16 * d
abbrev idSteer : Nat := 0x1806
abbrev idBlend : Nat := 0x1807
abbrev idTileX : Nat := 0x1810
abbrev idTileY : Nat := 0x1811
abbrev idRayCtrl : Nat := 0x1818
abbrev idTickCtrl : Nat := 0x1C00
abbrev idRateNum : Nat := 0x1C01
abbrev idRateDen : Nat := 0x1C02
abbrev idEpochSecLo : Nat := 0x1C03
abbrev idEpochSecHi : Nat := 0x1C04
abbrev idEpochNs : Nat := 0x1C05
abbrev idEpochFrac : Nat := 0x1C06
abbrev idSkipped : Nat := 0x1C07
/-- Register r of PLATE_p (Key maps of chapter 16). -/
abbrev idPlate (p r : Nat) : Nat := 0x2000 + 32 * p + r
abbrev idRfcCtrl : Nat := 0x2400
abbrev idRfcLate : Nat := 0x2403
abbrev idMaskCtrl (q : Nat) : Nat := 0x2800 + 64 * q
abbrev idMaskStrips (q : Nat) : Nat := 0x2802 + 64 * q
abbrev idTilesFetched (q : Nat) : Nat := 0x2804 + 64 * q
abbrev idTilesTransp (q : Nat) : Nat := 0x2806 + 64 * q
abbrev idTilesOccl (q : Nat) : Nat := 0x2808 + 64 * q
abbrev idSamplesSaved (q : Nat) : Nat := 0x280A + 64 * q
abbrev idUrgentCycles (q : Nat) : Nat := 0x2821 + 64 * q
abbrev idPanicCycles (q : Nat) : Nat := 0x2823 + 64 * q
abbrev idAbandoned (q : Nat) : Nat := 0x2825 + 64 * q
abbrev idSamples (q : Nat) : Nat := 0x2C00 + 16 * q
abbrev idEarly (q : Nat) : Nat := 0x2C02 + 16 * q
abbrev idMiss (q : Nat) : Nat := 0x2C04 + 16 * q
abbrev idFxCtrl (f : Nat) : Nat := 0x3000 + 32 * f
/-- Counter i of FX_f: 0 BLOCKS, 1 PRED, 2 FLAT, 3 RAW, 4 FALLBACK, 5 MISMATCH, 6 STORED_BYTES, 7 INVALID, 8 UNCORR. -/
abbrev idFxCtr (f i : Nat) : Nat := 0x3002 + 32 * f + 2 * i
abbrev idDevInvalid (c : Nat) : Nat := 0x3400 + 8 * c
abbrev idDevUncorr (c : Nat) : Nat := 0x3402 + 8 * c
abbrev idCorrCtrl : Nat := 0x3800
abbrev idMatrix (i : Nat) : Nat := 0x3801 + i
abbrev idOffsetRg : Nat := 0x3806
abbrev idOffsetB : Nat := 0x3807
abbrev idOdCtrl : Nat := 0x3810
abbrev idOdActive (q : Nat) : Nat := 0x3C01 + 32 * q
abbrev idOdOldband (q : Nat) : Nat := 0x3C03 + 32 * q
abbrev idPfsBypass (q : Nat) : Nat := 0x3C05 + 32 * q
abbrev idDodgeFault (q : Nat) : Nat := 0x3C07 + 32 * q
abbrev idRasterSize : Nat := 0x4000
abbrev idRasterGuard : Nat := 0x4001
abbrev idDscCtrl : Nat := 0x4008
abbrev idWm (q : Nat) : Nat := 0x4401 + 16 * q
abbrev idUnderInfo (q : Nat) : Nat := 0x4402 + 16 * q
abbrev idUnderruns (q : Nat) : Nat := 0x4403 + 16 * q
/-- Register r of LOUPE rectangle n: 0 X, 1 Y, 2 CTRL, 3 EXPECT, 4 CRC. -/
abbrev idLoupe (q n r : Nat) : Nat := 0x4800 + 80 * q + 5 * n + r
abbrev idLoupeStatus (q : Nat) : Nat := 0x4940 + q
abbrev idPlCtrl (q : Nat) : Nat := 0x4C00 + 32 * q
abbrev idPlRetrains (q : Nat) : Nat := 0x4C02 + 32 * q
abbrev idDrvCrc (q : Nat) : Nat := 0x4C04 + 32 * q
abbrev idSbChips (q : Nat) : Nat := 0x4C10 + 32 * q
abbrev idSbErrors (q : Nat) : Nat := 0x4C11 + 32 * q
abbrev idGate : Nat := 0x5000
abbrev idPnlSeq : Nat := 0x5008
abbrev idPnlTiming : Nat := 0x5009
abbrev idCrkCtrl : Nat := 0x5010
abbrev idCrkLimit (i : Nat) : Nat := 0x5011 + i
abbrev idCrkValue (i : Nat) : Nat := 0x5013 + i
abbrev idBlCtrl : Nat := 0x5400
abbrev idBlLead : Nat := 0x5401
abbrev idBlSteer (st n : Nat) : Nat := 0x5500 + 64 * st + n
abbrev idBlZone (n : Nat) : Nat := 0x5800 + n
abbrev idCtCtrl : Nat := 0x5C00
abbrev idCtDone (x : Nat) : Nat := 0x5C09 + 2 * x
abbrev idCtReach (p : Nat) : Nat := 0x5C10 + p
abbrev idCtJobs : Nat := 0x5C20
abbrev idCtRmw : Nat := 0x5C22
abbrev idCtStored : Nat := 0x5C24
abbrev idCtFault : Nat := 0x5C26
abbrev idTimeCfg : Nat := 0x6100
abbrev idPtpCfg : Nat := 0x6400
abbrev idPtpLat : Nat := 0x6401
abbrev idRxDropped : Nat := 0x6405
abbrev idPinsel : Nat := 0x6410
/-- Register r of TO_n: 0 CTRL, 1 START_SEC_LO, 2 START_SEC_HI, 3 START_NS, 4 PERIOD, 5 WIDTH, 6 MISSED. -/
abbrev idTo (n r : Nat) : Nat := 0x6420 + 16 * n + r
abbrev idStbCtrl (m : Nat) : Nat := 0x6460 + 4 * m
abbrev idStbOffset (m : Nat) : Nat := 0x6461 + 4 * m
abbrev idThmCtrl : Nat := 0x6800
abbrev idWakeCfg : Nat := 0x6C00
abbrev idWakeStatus : Nat := 0x6C01
abbrev idAonTimer : Nat := 0x6C02
abbrev idRet : Nat := 0x6C03
abbrev idBor : Nat := 0x6C04
abbrev idSafePos : Nat := 0x6C05
abbrev idSafeSize : Nat := 0x6C06
abbrev idSafeCtrl : Nat := 0x6C07
abbrev idSafeImgLo : Nat := 0x6C08
abbrev idSafeImgHi : Nat := 0x6C09
abbrev idLatentThresh : Nat := 0x6C0A
abbrev idPmuBoot : Nat := 0x6C0B
abbrev idClkLoss : Nat := 0x6C10
abbrev idRelocks : Nat := 0x6C12
abbrev idProtect : Nat := 0x7000
abbrev idNvmWrites : Nat := 0x7002
abbrev idTornSeen : Nat := 0x7004
abbrev idProtRefused : Nat := 0x7006
abbrev idEvStatus (g : Nat) : Nat := 0x7400 + 4 * g
abbrev idEvEnable (g : Nat) : Nat := 0x7401 + 4 * g
abbrev idEvLost (g : Nat) : Nat := 0x7403 + 4 * g
abbrev idEvFatal : Nat := 0x7449
abbrev idEvCfg (n : Nat) : Nat := 0x7500 + n
abbrev idCalCtrl : Nat := 0x7800
/-- Word k of source n's capture (R408): 0 LO, 1 HI, 2 TICK, 3 COUNT. -/
abbrev idCap (n k : Nat) : Nat := 0x7C00 + 0x400 * (n / 192) + 4 * (n % 192) + k

/-! ### Fields of a header slot (R358) -/

def istType (x : Ist) : Nat := x.h 0 1 % 16
def istSpace (x : Ist) : Nat := x.h 1 1 % 2
def istLen (x : Ist) : Nat := x.h 2 2
def istTag (x : Ist) : Nat := x.h 4 1
def istAddr (x : Ist) : Nat := x.h 8 8

/-- The pool of a virtual channel's receive credits on module m (R336). -/
def vcPool (m : Fin 2) (vc : Nat) : Nat := 4 * m.val + vc

/-- The virtual channel of a credit-consuming transaction that the host sends (R359). -/
def istVc (x : Ist) : Option Nat :=
  match istType x with
  | 1 => some 0
  | 2 => some 1
  | 4 => some 3
  | _ => none

/-- Slots that a transaction takes (R359). -/
def istSlots (x : Ist) : Nat := match istType x with | 1 => 1 + ceilDiv (istLen x) 16 | _ => 1

end Sys2Proof.Machine
end

