-- ==== Sys2Proof/Machine/Pixel.lean ====
section
/-!
DEFINITION. From pixel to ray and from ray to composited value: the ray of R129 and R131, the Refocus entry of R136, the decode
of R113 to R116, and the sampling and compositing arithmetic of R146 to R157. Every narrowing is the one its rule names (R14).
-/
namespace Sys2Proof.Machine

/-- Clamp to signed 1.15 and to signed 32-bit. -/
def sat16 (x : Int) : Int := clampInt (-32768) 32767 x
def sat32 (x : Int) : Int := clampInt (-2147483648) 2147483647 x

/-! ### Decode into the working format -/

/-- A texel or a sample in the working format (R112). -/
structure Rgba where
  r : Nat
  g : Nat
  b : Nat
  a : Nat
deriving DecidableEq, Repr

def rgba0 : Rgba := ⟨0, 0, 0, 0⟩

/-- premul, rep10 and a2 (R113). -/
def premul (c a : Nat) : Nat := (rneDiv ((c * a : Nat) : Int) 65535).toNat
def rep10 (v : Nat) : Nat := v * 64 + v / 16
def a2of (v : Nat) : Nat := v * 21845

/-- Halving search for the greatest n with a monotone property that holds at lo. -/
def bisect (p : Nat → Bool) : Nat → Nat → Nat → Nat
  | 0, lo, _ => lo
  | k + 1, lo, hi => let mid := (lo + hi) / 2
    if hi ≤ lo + 1 then lo else if p mid then bisect p k mid hi else bisect p k lo mid

/-- The sRGB decoding function over codes 0 to m (R114): rne(65535 L(v / m), 0). The power 12/5 is compared exactly, by
fifth and twelfth powers of integers. -/
def srgbLin (m v : Nat) : Nat :=
  if v * 100000 ≤ 4045 * m then (rneDiv ((65535 * v * 100 : Nat) : Int) (1292 * m)).toNat
  else bisect (fun n => (2 * n - 1) ^ 5 * (1055 * m) ^ 12 < (2 * 65535) ^ 5 * (1000 * v + 55 * m) ^ 12) 17 0 65536

/-- The tables SRGB8 and SRGB10 (R114). -/
def srgb8 (v : Nat) : Nat := srgbLin 255 v
def srgb10 (v : Nat) : Nat := srgbLin 1023 v

/-- A binary16 pattern as a value in 0 to 65535: rne(65535 min(max(v, 0), 1), 0), NaN as 0 (R115). -/
def half16 (w : Nat) : Nat :=
  let e := w / 1024 % 32
  let m := w % 1024
  if e = 31 ∧ m ≠ 0 then 0
  else if w.testBit 15 then 0
  else if 15 ≤ e then 65535
  else if e = 0 then (rneShift ((65535 * m : Nat) : Int) 24).toNat
  else (rneShift ((65535 * (1024 + m) : Nat) : Int) (25 - e)).toNat

/-- Straight colour to a working texel: premultiplied, or taken as premultiplied when PREMUL = 1 (R115). -/
def straight (pre : Bool) (r g b a : Nat) : Rgba :=
  if pre then ⟨min r a, min g a, min b a, a⟩ else ⟨premul r a, premul g a, premul b a, a⟩

/-- The 10-bit codes R, G, B of a YCbCr texel (R116): full range, BT.2020, and the codes Y, Cb, Cr. -/
def ycc (full bt2020 : Bool) (yc cb cr : Nat) : Nat × Nat × Nat :=
  let sy : Int := if full then 1023 else 876
  let sc : Int := if full then 1023 else 896
  let y : Int := if full then yc else (yc : Int) - 64
  let u : Int := (cb : Int) - 512
  let v : Int := (cr : Int) - 512
  let kr : Int := if bt2020 then 12080 else 12901
  let kgb : Int := if bt2020 then 1348 else 1535
  let kgr : Int := if bt2020 then 4681 else 3835
  let kb : Int := if bt2020 then 15412 else 15201
  let code (c : Int) : Nat :=
    (clampInt 0 1023 (rneDiv (y * 1023 * 8192 * sc + c * 1023 * sy) (sy * 8192 * sc).toNat)).toNat
  (code (kr * v), code (-kgb * u - kgr * v), code (kb * u))

/-- The decode fields of PLATE_p.CTRL and the A1 fill colour. -/
structure DecodeCtl where
  full : Bool
  bt2020 : Bool
  pre : Bool
  xfer : Bool
  mr : Nat
  mg : Nat
  mb : Nat
  ma : Nat
deriving DecidableEq, Repr

/-- The alpha that a format's stored element decodes to (R115): the format code, the plane-0 element and the A8 byte. -/
def decodeAlpha (fmt : Nat) (el : Nat) (a8 : Option Nat) : Nat :=
  match fmt with
  | 0 => el / 2 ^ 24 % 256 * 257
  | 1 => a2of (el / 2 ^ 30 % 4)
  | 2 => half16 (el / 2 ^ 48)
  | 3 => match a8 with
    | some a => a * 257
    | none => 65535
  | _ => 65535

/-- One decoded texel (R115): the format, plane 0's element (for A1 the bit), the chroma element and the A8 byte. -/
def decodeTexel (fmt : Nat) (c : DecodeCtl) (el chroma : Nat) (a8 : Option Nat) : Rgba :=
  let a := decodeAlpha fmt el a8
  match fmt with
  | 0 => straight c.pre (srgb8 (el % 256)) (srgb8 (el / 2 ^ 8 % 256)) (srgb8 (el / 2 ^ 16 % 256)) a
  | 1 =>
    let t (v : Nat) : Nat := if c.xfer then srgb10 v else rep10 v
    straight c.pre (t (el % 1024)) (t (el / 2 ^ 10 % 1024)) (t (el / 2 ^ 20 % 1024)) a
  | 2 => straight c.pre (half16 (el % 65536)) (half16 (el / 2 ^ 16 % 65536)) (half16 (el / 2 ^ 32 % 65536)) a
  | 3 =>
    let t (v : Nat) : Nat := if c.xfer then srgb10 v else rep10 v
    let rgb := ycc c.full c.bt2020 (el % 1024) (chroma % 1024) (chroma / 2 ^ 16 % 1024)
    straight false (t rgb.1) (t rgb.2.1) (t rgb.2.2) a
  | 4 => let v := if c.xfer then srgb8 (el % 256) else el % 256 * 257
    straight false v v v 65535
  | _ => if el % 2 = 1 then straight false c.mr c.mg c.mb c.ma else rgba0

/-! ### Rays -/

/-- A ray in the wall frame (R117, R118). -/
structure Ray where
  u : Int
  v : Int
  dx : Int
  dy : Int
deriving DecidableEq, Repr

/-- One entry of a Refocus table (R133). -/
structure RfEntry where
  ox : Int
  oy : Int
  kx : Int
  ky : Int
  odx : Int
  ody : Int
deriving DecidableEq, Repr

def rfIdentity : RfEntry := ⟨0, 0, 0, 0, 0, 0⟩

/-- The 32 bytes of an entry (R133). -/
def rfBytes (e : RfEntry) : List Byte :=
  leBytes 4 (unsigned 32 e.ox) ++ leBytes 4 (unsigned 32 e.oy) ++ leBytes 2 (unsigned 16 e.kx)
    ++ leBytes 2 (unsigned 16 e.ky) ++ leBytes 2 (unsigned 16 e.odx) ++ leBytes 2 (unsigned 16 e.ody)
    ++ List.replicate 16 0

/-- The coefficient record (R135). -/
structure Coeff where
  anchorX : Int
  anchorY : Int
  alphaX : Int
  alphaY : Int
  betaX : Int
  betaY : Int
  tRef : Int
deriving DecidableEq, Repr

/-- The entry of region (rx, ry) at panel temperature t (R136). -/
def rfEntry (c : Coeff) (rx ry : Nat) (t : Int) : RfEntry :=
  let dT := t - c.tRef
  let ex := (rx * 65536 + 32768 : Nat) - c.anchorX
  let ey := (ry * 65536 + 32768 : Nat) - c.anchorY
  { ox := sat32 (rneShift (c.alphaX * dT * ex) 22)
    oy := sat32 (rneShift (c.alphaY * dT * ey) 22)
    kx := sat16 (rneShift (c.alphaX * dT) 14)
    ky := sat16 (rneShift (c.alphaY * dT) 14)
    odx := sat16 (rneShift (c.betaX * dT * ex) 33)
    ody := sat16 (rneShift (c.betaY * dT * ey) 33) }

/-- Signed field of w bits at a byte offset of a region record (R125). -/
def recS (rec : List Byte) (off n w : Nat) : Int := signed w (leAt rec off n)

/-- The ray of tile pixel (px, py) in FIELD or SERVICE (R121, R128, R129): region record, Refocus entry, steer state, whether
residuals are enabled, the residual byte, and TILE.OFFSET. -/
def rayOf (rec : List Byte) (f : RfEntry) (st : Nat) (residEn : Bool) (res : Nat) (tileX tileY : Int)
    (px py : Nat) : Ray :=
  let hx := px / 16
  let hy := py / 16
  let rx := hx / 64
  let ry := hy / 64
  let i : Int := (hx % 64 : Nat)
  let j : Int := (hy % 64 : Nat)
  let k := 0x40 + 4 * (16 * (py % 16) + px % 16)
  let lx := ((rx * 65536 + 512) * 65536 : Nat) + recS rec 0 4 24 * 256 + i * recS rec 8 4 32 + j * recS rec 0x10 4 32
  let ly := ((ry * 65536 + 512) * 65536 : Nat) + recS rec 4 4 24 * 256 + i * recS rec 0xC 4 32 + j * recS rec 0x14 4 32
  let dx := sat16 (recS rec k 2 16 + recS rec (0x20 + 4 * st) 2 16)
  let dy := sat16 (recS rec (k + 2) 2 16 + recS rec (0x22 + 4 * st) 2 16)
  let on := residEn && (leAt rec 0x1C 4).testBit 0
  let rho := signed 4 (res / 16)
  let del := signed 4 res
  let rps : Int := (leAt rec 0x18 2 : Nat)
  let rds : Int := (leAt rec 0x1A 2 : Nat)
  let dx := if on then sat16 (dx + rneShift (dx * del * rds) 16) else dx
  let dy := if on then sat16 (dy + rneShift (dy * del * rds) 16) else dy
  let lx := if on then lx + rneShift (rho * rps * dx) 7 else lx
  let ly := if on then ly + rneShift (rho * rps * dy) 7 else ly
  let cx : Int := ((rx * 65536 + 32768) * 65536 : Nat)
  let cy : Int := ((ry * 65536 + 32768) * 65536 : Nat)
  let lx := lx + f.ox + rneShift (f.kx * (lx - cx)) 24
  let ly := ly + f.oy + rneShift (f.ky * (ly - cy)) 24
  ⟨sat32 (rneShift lx 16 + tileX), sat32 (rneShift ly 16 + tileY), sat16 (dx + f.odx), sat16 (dy + f.ody)⟩

/-- The ray of hogel (hx, hy) in FLAT (R131): sub-pixel (8, 8), without steps 2 and 3, the warp on the position only. The
direction affects nothing, and reads 0 here. -/
def rayFlat (rec : List Byte) (f : RfEntry) (tileX tileY : Int) (hx hy : Nat) : Ray :=
  let rx := hx / 64
  let ry := hy / 64
  let i : Int := (hx % 64 : Nat)
  let j : Int := (hy % 64 : Nat)
  let lx := ((rx * 65536 + 512) * 65536 : Nat) + recS rec 0 4 24 * 256 + i * recS rec 8 4 32 + j * recS rec 0x10 4 32
  let ly := ((ry * 65536 + 512) * 65536 : Nat) + recS rec 4 4 24 * 256 + i * recS rec 0xC 4 32 + j * recS rec 0x14 4 32
  let cx : Int := ((rx * 65536 + 32768) * 65536 : Nat)
  let cy : Int := ((ry * 65536 + 32768) * 65536 : Nat)
  let lx := lx + f.ox + rneShift (f.kx * (lx - cx)) 24
  let ly := ly + f.oy + rneShift (f.ky * (ly - cy)) 24
  ⟨sat32 (rneShift lx 16 + tileX), sat32 (rneShift ly 16 + tileY), 0, 0⟩

/-! ### Sampling -/

/-- The placement fields of a plate (R91) with its geometry, as stored integers. `typ` is the type code of R83. -/
structure Placed where
  typ : Nat
  w : Nat
  h : Nat
  vx : Nat
  vy : Nat
  ox : Int
  oy : Int
  z : Int
  px : Nat
  py : Nat
  cos : Int
  sin : Int
  dz : Nat
  steps : Nat
  d0x : Int
  d0y : Int
  stepX : Int
  stepY : Int
deriving DecidableEq, Repr

/-- A tap: the working texel and the D16 code (R149). -/
structure Tap where
  c : Rgba
  d : Nat
deriving DecidableEq, Repr

/-- What a tap outside the plate, or in an undeliverable block, reads (R149, R162). -/
def tapOut : Tap := ⟨rgba0, 0xFFFF⟩

/-- Where a ray meets depth z, in 2^-8 position units (R146). -/
def intersect (r : Ray) (z : Int) : Int × Int :=
  (r.u * 256 + rneShift (z * r.dx) 13, r.v * 256 + rneShift (z * r.dy) 13)

/-- Texel coordinates of a wall point in 2^-8 texels (R147). -/
def texCoord (p : Placed) (q : Int × Int) : Int × Int :=
  let ex := q.1 - p.ox * 256
  let ey := q.2 - p.oy * 256
  (sat32 (rneDiv (ex * p.cos + ey * p.sin) (p.px * 64)), sat32 (rneDiv (-ex * p.sin + ey * p.cos) (p.py * 64)))

/-- rne(a / 2^16, 0) of a weighted sum (R150). -/
def wsum (w : Nat × Nat × Nat × Nat) (a b c d : Nat) : Nat :=
  (rneShift ((w.1 * a + w.2.1 * b + w.2.2.1 * c + w.2.2.2 * d : Nat) : Int) 16).toNat

/-- Weighted sum per channel. -/
def wsumRgba (w : Nat × Nat × Nat × Nat) (a b c d : Rgba) : Rgba :=
  ⟨wsum w a.r b.r c.r d.r, wsum w a.g b.g c.g d.g, wsum w a.b b.b c.b d.b, wsum w a.a b.a c.a d.a⟩

/-- The weights of fractions fx and fy (R148, R155), in the order 00, 10, 01, 11. -/
def weights (fx fy : Nat) : Nat × Nat × Nat × Nat :=
  ((256 - fx) * (256 - fy), fx * (256 - fy), (256 - fx) * fy, fx * fy)

/-- The result of one sample: its value, its depth code and whether all four taps lay outside the plate (R163). -/
structure Sample where
  c : Rgba
  h : Nat
  miss : Bool
deriving DecidableEq, Repr

/-- One sample of view (vi, vj) at texel coordinates (R148 to R150). `tap` reads the texel at a position of the texel
array. -/
def sampleAt (p : Placed) (tap : Nat → Nat → Tap) (vi vj : Nat) (st : Int × Int) : Sample :=
  let a := st.1 - 128
  let b := st.2 - 128
  let x0 := shr a 8
  let y0 := shr b 8
  let w := weights (a % 256).toNat (b % 256).toNat
  let inside (x y : Int) : Bool := 0 ≤ x && x < p.w && 0 ≤ y && y < p.h
  let t (x y : Int) : Tap := if inside x y then tap (vi * p.w + x.toNat) (vj * p.h + y.toNat) else tapOut
  let t00 := t x0 y0
  let t10 := t (x0 + 1) y0
  let t01 := t x0 (y0 + 1)
  let t11 := t (x0 + 1) (y0 + 1)
  { c := wsumRgba w t00.c t10.c t01.c t11.c
    h := wsum w t00.d t10.d t01.d t11.d
    miss := !(inside x0 y0 || inside (x0 + 1) y0 || inside x0 (y0 + 1) || inside (x0 + 1) (y0 + 1)) }

/-- Clamp a depth to signed 15.16 (R11). -/
def satZ (z : Int) : Int := clampInt (-1073741824) 1073741823 z

/-- The RELIEF march of n steps from depth z (R152): the last sample's colour, and how many samples missed. -/
def reliefMarch (p : Placed) (tap : Nat → Nat → Tap) (r : Ray) : Nat → Int → Rgba → Nat → Rgba × Nat
  | 0, _, c, m => (c, m)
  | n + 1, z, _, m =>
    let s := sampleAt p tap 0 0 (texCoord p (intersect r z))
    reliefMarch p tap r n (satZ (p.z + rneShift ((s.h * p.dz : Nat) : Int) 8)) s.c (m + b2n s.miss)

/-- The view coordinate of R154. -/
def viewCoord (n : Nat) (step d d0 : Int) : Nat :=
  if n ≤ 1 ∨ step = 0 then 0
  else
    let q := if 0 < step then rneDiv ((d - d0) * 256) step.toNat else rneDiv (-(d - d0) * 256) (-step).toNat
    (clampInt 0 ((n - 1) * 256 : Nat) q).toNat

/-- The sample of one plate for a ray (R150, R152, R154, R155): colour, samples taken and samples that missed. -/
def samplePlate (p : Placed) (tap : Nat → Nat → Tap) (r : Ray) : Rgba × Nat × Nat :=
  match p.typ with
  | 1 =>
    let n := p.steps + 1
    let m := reliefMarch p tap r n (satZ (p.z + p.dz * 128)) rgba0 0
    (m.1, n, m.2)
  | 2 =>
    let st := texCoord p (intersect r p.z)
    let gx := viewCoord p.vx p.stepX r.dx p.d0x
    let gy := viewCoord p.vy p.stepY r.dy p.d0y
    let i0 := gx / 256
    let j0 := gy / 256
    let i1 := min (i0 + 1) (p.vx - 1)
    let j1 := min (j0 + 1) (p.vy - 1)
    let s00 := sampleAt p tap i0 j0 st
    let s10 := sampleAt p tap i1 j0 st
    let s01 := sampleAt p tap i0 j1 st
    let s11 := sampleAt p tap i1 j1 st
    (wsumRgba (weights (gx % 256) (gy % 256)) s00.c s10.c s01.c s11.c, 4,
      b2n s00.miss + b2n s10.miss + b2n s01.miss + b2n s11.miss)
  | _ =>
    let s := sampleAt p tap 0 0 (texCoord p (intersect r p.z))
    (s.c, 1, b2n s.miss)

/-- The sample of a plate in FLAT mode (R95, R160): Z = 0, one sample, of the middle view for a VIEWSET plate. -/
def samplePlateFlat (p : Placed) (tap : Nat → Nat → Tap) (r : Ray) : Rgba × Nat × Nat :=
  let st := texCoord p (intersect r 0)
  let s := if p.typ = 2 then sampleAt p tap (p.vx / 2) (p.vy / 2) st else sampleAt p tap 0 0 st
  (s.c, 1, b2n s.miss)

/-- What compositing a pixel delivers and counts (R157, R163). -/
structure Comp where
  c : Rgba
  samples : Nat
  misses : Nat
  early : Bool
deriving DecidableEq, Repr

/-- rne(s × k / 65535, 0) (R157). -/
def blend (s k : Nat) : Nat := (rneDiv ((s * k : Nat) : Int) 65535).toNat

/-- Front-to-back compositing of a blend list (R157, R158): each element gives its sample and its counts. -/
def composite : List (Unit → Rgba × Nat × Nat) → Comp → Comp
  | [], acc => acc
  | f :: fs, acc =>
    if acc.c.a = 65535 then { acc with early := true }
    else
      let s := f ()
      let k := 65535 - acc.c.a
      composite fs
        { c := ⟨acc.c.r + blend s.1.r k, acc.c.g + blend s.1.g k, acc.c.b + blend s.1.b k, acc.c.a + blend s.1.a k⟩
          samples := acc.samples + s.2.1
          misses := acc.misses + s.2.2
          early := false }

def comp0 : Comp := ⟨rgba0, 0, 0, false⟩

end Sys2Proof.Machine
end

