-- ==== Sys2Proof/Machine/Correct.lean ====
section
/-!
DEFINITION. The correction chain of an Easel (R214 to R231) on one channel or one pixel, the choice of a temperature band
(R228 to R230), the lead and the urgency state (R242, R243), and the arithmetic of the line periods (R235).
-/
namespace Sys2Proof.Machine

/-- Stage 1 for one output channel (R216): the row's three coefficients and the offset, as stored integers. -/
def matrixStage (m0 m1 m2 off : Int) (r g b : Nat) : Nat :=
  (clampInt 0 65535 (rneShift (m0 * r + m1 * g + m2 * b) 13 + off)).toNat

/-- Stage 2 for one channel (R218): fine and coarse gain and offset. -/
def dodgeStage (o gf : Nat) (offF : Int) (gc : Nat) (offC : Int) : Nat :=
  (clampInt 0 65535 (rneShift ((o * gf * gc : Nat) : Int) 14 + 4 * (offF + offC))).toNat

/-- Stage 3 for one channel (R221): the table X_i as a function of its index. -/
def transferStage (x : Nat → Nat) (d : Nat) : Nat :=
  let n := d / 16
  let f := d % 16
  (rneShift ((x n * (16 - f) + x (min (n + 1) 4095) * f : Nat) : Int) 4).toNat

/-- The result of stage 4 for one channel: the drive, the store byte, and whether PREV_BAND was used (R227, R230). -/
structure OdResult where
  drive : Nat
  byte : Nat
  old : Bool
deriving DecidableEq, Repr

/-- Stage 4 (R227): `od b j n_o n_t` is the overdrive table, `steps b` its step count, the store byte (R223), BAND,
PREV_BAND, OLD_LEFT and MIN_DELTA. A tag of 3 reads as 0. -/
def odStage (od : Nat → Nat → Nat → Nat → Nat) (steps : Nat → Nat) (band prev oldLeft minDelta t byte : Nat) :
    OdResult :=
  let p6 := byte / 4
  let s := if byte % 4 = 3 then 0 else byte % 4
  let old := decide (2 - oldLeft < s)
  let b := if old then prev else band
  let o := p6 * 256 + p6 * 4 + p6 / 16
  let no := o / 512
  let fo := o % 512
  let nt := t / 512
  let ft := t % 512
  let e := od b s
  let acc := (512 - fo) * (512 - ft) * e no nt + fo * (512 - ft) * e (no + 1) nt
    + (512 - fo) * ft * e no (nt + 1) + fo * ft * e (no + 1) (nt + 1)
  let swing := if o ≤ t then t - o else o - t
  { drive := (rneShift (acc : Int) 18).toNat
    byte := if s + 1 < steps b ∧ minDelta ≤ swing then p6 * 4 + (s + 1) else t / 256 * 4
    old := old }

/-- The store byte written when stage 4 is bypassed (R225, R227): level t >> 8, no step. -/
def odBypass (t : Nat) : OdResult := ⟨t, t / 256 * 4, false⟩

/-- The 4 × 4 thresholds of Grain (R231). -/
def bayer (row col : Nat) : Nat :=
  ((([0, 8, 2, 10], [12, 4, 14, 6], [3, 11, 1, 9], [15, 7, 13, 5]) : List Nat × List Nat × List Nat × List Nat) |>
    fun t => (match row % 4 with | 0 => t.1 | 1 => t.2.1 | 2 => t.2.2.1 | _ => t.2.2.2).getD (col % 4) 0)

/-- The offsets (ox, oy) of phase φ (R231). -/
def grainOff (phase : Nat) : Nat × Nat :=
  match phase % 4 with
  | 0 => (0, 0) | 1 => (2, 2) | 2 => (2, 0) | _ => (0, 2)

/-- Stage 5 for one channel at tile pixel (px, py) (R231). -/
def grainStage (en : Bool) (phase px py drive : Nat) : Nat :=
  let th := if en then bayer (py + (grainOff phase).2) (px + (grainOff phase).1) else 8
  min ((drive + th) / 16) 1023

/-! ### Temperature bands -/

/-- The band state of a quadrant (OD_q.STATUS). -/
structure Band where
  band : Nat
  prev : Nat
  dwell : Nat
  oldLeft : Nat
deriving DecidableEq, Repr

/-- The number of bounds at or below a temperature, each lowered by h (R228). -/
def boundCount (bounds : List Int) (t h : Int) : Nat := (bounds.filter fun b => b - h ≤ t).length

/-- OLD_LEFT at a raster sub-frame (R229). -/
def bandAge (s : Band) : Band := { s with oldLeft := s.oldLeft - 1 }

/-- The evaluation of R228 and R229 for a raster sub-frame that starts: `first` on the first one after entry. The result's flag
says that the band changed. DWELL starts at 1 on the first one, and is compared before the one that starts counts in it (log entry 145). -/
def bandStep (bounds : List Int) (tq : Int) (first : Bool) (s : Band) : Band × Bool :=
  let up := boundCount bounds tq 0
  let down := boundCount bounds tq 256
  let s := bandAge s
  if first then ({ s with band := up, prev := up, dwell := 1 }, false)
  else
    let cand := if s.band < up then up else if down < s.band then down else s.band
    if cand ≠ s.band ∧ 4 ≤ s.dwell then ({ band := cand, prev := s.band, dwell := 1, oldLeft := 2 }, true)
    else ({ s with dwell := min (s.dwell + 1) 7 }, false)

/-! ### Raster timing -/

/-- The urgency states of a quadrant (R34). -/
inductive Urgency where
  | normal | urgent | panic
deriving DecidableEq, Repr

def urgCode (u : Urgency) : Nat := match u with | .normal => 0 | .urgent => 1 | .panic => 2

/-- The evaluation of R243 with the watermarks of EASEL_q.WM, LOW replaced by PANIC + 1 where the write left it at or
below PANIC (R244). -/
def urgencyStep (wm : Word) (lead : Int) (u : Urgency) : Urgency :=
  let p : Int := (fld wm 7 0 : Nat)
  let l : Int := (max (fld wm 15 8) (fld wm 7 0 + 1) : Nat)
  let y : Int := (fld wm 19 16 : Nat)
  match u with
  | .normal => if lead < p then .panic else if lead < l then .urgent else .normal
  | .urgent => if lead < p then .panic else if l + y ≤ lead then .normal else .urgent
  | .panic => if l + y ≤ lead then .normal else if p + y ≤ lead then .urgent else .panic

/-- Nominal EASEL_CLK cycles of a raster sub-frame (R235). -/
def nominalCycles (d num den : Nat) : Nat := 1200000000 * d * den / num

/-- C of R235: the measured cycles where they are available and within one part in a thousand of nominal. -/
def rasterCycles (cn : Nat) (measured : Option Nat) : Nat :=
  match measured with
  | none => cn
  | some c => if (if c ≤ cn then cn - c else c - cn) * 1000 > cn then cn else c

/-- The start of line period n after the arrival, in EASEL_CLK cycles (R235). -/
def periodStart (c guard lt n : Nat) : Nat := n * (c - guard) / lt

end Sys2Proof.Machine
end

