-- ==== Sys2Proof/Machine/MaskCalc.lean ====
section
/-!
DEFINITION. The geometry of Mask: a strip's ray box and direction box (R167, R168), a plate's depth range (R169), and the tap
and tile ranges of a footprint (R170).
-/
namespace Sys2Proof.Machine

/-- The ray box and the direction box of a strip, in position units and 2^-15 (R167). -/
structure RayBox where
  u0 : Int
  u1 : Int
  v0 : Int
  v1 : Int
  dx0 : Int
  dx1 : Int
  dy0 : Int
  dy1 : Int
deriving DecidableEq, Repr

/-- One bound store entry (R168). -/
structure DirBound where
  dx0 : Int
  dx1 : Int
  dy0 : Int
  dy1 : Int
deriving DecidableEq, Repr

/-- The bounds of sat(DIR[n] + TILT[st]) over n = 0 to 255 of one component at byte offset c (R168). -/
def dirBound1 (rec : List Byte) (st c : Nat) : Int × Int :=
  (List.range 256).foldl (fun b n =>
    let d := sat16 (recS rec (0x40 + 4 * n + c) 2 16 + recS rec (0x20 + 4 * st + c) 2 16)
    (min b.1 d, max b.2 d)) (32767, -32768)

/-- The bound store entry that the firmware computes at a ray-map load (R168). -/
def dirBound (rec : List Byte) (st : Nat) : DirBound :=
  let x := dirBound1 rec st 0
  let y := dirBound1 rec st 2
  ⟨x.1, x.2, y.1, y.2⟩

/-- Step 1 of R167 for one component: widen by ceil(M × RDS / 8192) + 1 where residuals apply, add the direction shift,
saturate. -/
def widenDir (resid : Bool) (rds : Nat) (od lo hi : Int) : Int × Int :=
  let m := max lo.natAbs hi.natAbs
  let w : Int := if resid then (ceilDiv (m * rds) 8192 + 1 : Nat) else 0
  (sat16 (lo - w + od), sat16 (hi + w + od))

/-- Steps 2 and 3 of R167 for one axis: the two lattice positions in 2^-16 units, the residual widening, the warp about c,
1 unit more on each side, and the tile offset. -/
def widenPos (resid : Bool) (rps : Nat) (p0 p1 : Int) (o k c tile : Int) : Int × Int :=
  let w : Int := if resid then ((ceilDiv rps 32 + 2) * 65536 : Nat) else 0
  let lo := min p0 p1 - w
  let hi := max p0 p1 + w
  let warp (l : Int) : Int := l + o + rneShift (k * (l - c)) 24
  (sat32 (rneShift (warp lo - 65536) 16 + tile), sat32 (rneShift (warp hi + 65536) 16 + tile))

/-- The ray box of strip m of hogel row hy (R167); `flat` takes the direction box {0} × {0} (R168). -/
def rayBox (rec : List Byte) (f : RfEntry) (b : DirBound) (residEn flat : Bool) (tileX tileY : Int) (m hy : Nat) :
    RayBox :=
  let resid := residEn && (leAt rec 0x1C 4).testBit 0 && !flat
  let hx0 := 32 * m
  let rx := hx0 / 64
  let ry := hy / 64
  let j : Int := (hy % 64 : Nat)
  let lx (i : Nat) : Int := ((rx * 65536 + 512) * 65536 : Nat) + recS rec 0 4 24 * 256 + i * recS rec 8 4 32 + j * recS rec 0x10 4 32
  let ly (i : Nat) : Int := ((ry * 65536 + 512) * 65536 : Nat) + recS rec 4 4 24 * 256 + i * recS rec 0xC 4 32 + j * recS rec 0x14 4 32
  let i0 := hx0 % 64
  let rps := leAt rec 0x18 2
  let rds := leAt rec 0x1A 2
  let u := widenPos resid rps (lx i0) (lx (i0 + 31)) f.ox f.kx ((rx * 65536 + 32768) * 65536 : Nat) tileX
  let v := widenPos resid rps (ly i0) (ly (i0 + 31)) f.oy f.ky ((ry * 65536 + 32768) * 65536 : Nat) tileY
  let dx := if flat then (0, 0) else widenDir resid rds f.odx b.dx0 b.dx1
  let dy := if flat then (0, 0) else widenDir resid rds f.ody b.dy0 b.dy1
  ⟨u.1, u.2, v.1, v.2, dx.1, dx.2, dy.1, dy.2⟩

/-- The depth range of a plate (R169). -/
def depthRange (p : Placed) (flat : Bool) : Int × Int :=
  if flat then (0, 0)
  else if p.typ = 1 then (p.z, satZ (p.z + rneShift ((65535 * p.dz : Nat) : Int) 8))
  else (p.z, p.z)

/-- A footprint: the range of texel taps, both ends included (R170). -/
structure Foot where
  x0 : Int
  x1 : Int
  y0 : Int
  y1 : Int
deriving DecidableEq, Repr

/-- The footprint of a plate for a ray box: R146 and R147 at every corner, and the tap range of R148 (R170). -/
def footprint (p : Placed) (b : RayBox) (flat : Bool) : Foot :=
  let z := depthRange p flat
  let pts := [b.u0, b.u1].flatMap fun u => [b.v0, b.v1].flatMap fun v => [b.dx0, b.dx1].flatMap fun dx =>
    [b.dy0, b.dy1].flatMap fun dy => [z.1, z.2].map fun zz => texCoord p (intersect ⟨u, v, dx, dy⟩ zz)
  let big : Int := 2 ^ 40
  let r := pts.foldl (fun (r : Foot) q => ⟨min r.x0 q.1, max r.x1 q.1, min r.y0 q.2, max r.y1 q.2⟩)
    ⟨big, -big, big, -big⟩
  ⟨shr (r.x0 - 128) 8, shr (r.x1 - 128) 8 + 1, shr (r.y0 - 128) 8, shr (r.y1 - 128) 8 + 1⟩

/-- Does every tap of a footprint lie inside the plate (R172)? -/
def footInside (p : Placed) (f : Foot) : Bool := 0 ≤ f.x0 && f.x1 < p.w && 0 ≤ f.y0 && f.y1 < p.h

/-- The view-local tiles of a footprint that lie inside the plate (R164, R170): the tap range shifted right by 6. -/
def footTiles (p : Placed) (f : Foot) : List (Nat × Nat) :=
  let cx := max f.x0 0
  let dx := min f.x1 (p.w - 1)
  let cy := max f.y0 0
  let dy := min f.y1 (p.h - 1)
  if dx < cx ∨ dy < cy then []
  else
    let tx0 := (shr cx 6).toNat
    let tx1 := (shr dx 6).toNat
    let ty0 := (shr cy 6).toNat
    let ty1 := (shr dy 6).toNat
    ((List.range (ty1 - ty0 + 1)).map fun ty =>
      (List.range (tx1 - tx0 + 1)).map fun tx => (tx0 + tx, ty0 + ty)).flatten

end Sys2Proof.Machine
end

