-- ==== Sys2Proof/Machine/Ytc.lean ====
section
/-!
DEFINITION. The Yelun Tile Codec (R185 to R198) and the choice of a stored form (R200, R201): pure functions on the 512 raw
bytes of a block, its stored bytes and its block-state entry.
-/
namespace Sys2Proof.Machine

/-- The layouts of R185. -/
inductive YLayout where
  | e8 | e16 | e8888 | e1010102 | e1616 | e16x4 | ea1
deriving DecidableEq, Repr

/-- The layout that a code names (R185). -/
def layoutOf (code : Nat) : Option YLayout :=
  match code with
  | 0 => some .e8 | 1 => some .e16 | 2 => some .e8888 | 3 => some .e1010102 | 4 => some .e1616 | 5 => some .e16x4
  | 6 => some .ea1 | _ => none

/-- The code of a layout (R185). -/
def layoutCode (l : YLayout) : Nat :=
  match l with
  | .e8 => 0 | .e16 => 1 | .e8888 => 2 | .e1010102 => 3 | .e1616 => 4 | .e16x4 => 5 | .ea1 => 6

/-- Component widths, c0 first (R185). -/
def layoutComps (l : YLayout) : List Nat :=
  match l with
  | .e8 => [8] | .e16 => [16] | .e8888 => [8, 8, 8, 8] | .e1010102 => [10, 10, 10, 2] | .e1616 => [16, 16]
  | .e16x4 => [16, 16, 16, 16] | .ea1 => [8]

/-- Element size in bytes; 1 for EA1, whose element is a byte of 8 texels (R185, R192). -/
def layoutElem (l : YLayout) : Nat :=
  match l with
  | .e8 => 1 | .e16 => 2 | .e8888 => 4 | .e1010102 => 4 | .e1616 => 4 | .e16x4 => 8 | .ea1 => 1

/-- Block width and height in elements; for EA1 in bytes of 8 texels (R185). -/
def layoutBw (l : YLayout) : Nat :=
  match l with
  | .e8 => 64 | .e16 => 64 | .e8888 => 32 | .e1010102 => 32 | .e1616 => 32 | .e16x4 => 16 | .ea1 => 8
def layoutBh (l : YLayout) : Nat :=
  match l with
  | .e8 => 8 | .ea1 => 64 | .e16 => 4 | .e8888 => 4 | .e1010102 => 4 | .e1616 => 4 | .e16x4 => 4

/-- Block width in texels or samples of the plane: 64 texels for EA1 (R185). -/
def layoutTexW (l : YLayout) : Nat := if l = .ea1 then 64 else layoutBw l

/-- Blocks of a plane of w × h texels: ceil in each direction (R104, R209). -/
def blocksAcross (l : YLayout) (w : Nat) : Nat := ceilDiv w (layoutTexW l)
def blockCount (l : YLayout) (w h : Nat) : Nat := blocksAcross l w * ceilDiv h (layoutBh l)

/-! ### Block-state entries -/

/-- The fields of an entry (R188). -/
def entMode (e : Nat) : Nat := e / 2 ^ 14 % 4
def entLen (e : Nat) : Nat := e / 2 ^ 10 % 16
def entAopq (e : Nat) : Bool := e.testBit 9
def entAtrn (e : Nat) : Bool := e.testBit 8
def entFb (e : Nat) : Bool := e.testBit 7

/-- An entry from its fields (R188). -/
def mkEntry (mode len : Nat) (aopq atrn fb : Bool) : Nat :=
  mode * 2 ^ 14 + len * 2 ^ 10 + b2n aopq * 2 ^ 9 + b2n atrn * 2 ^ 8 + b2n fb * 2 ^ 7

/-- Is an entry valid, in an alpha plane or elsewhere (R189)? -/
def entryValid (alpha : Bool) (e : Nat) : Bool :=
  (match entMode e with
    | 0 => entLen e == 15
    | 1 => entLen e ≤ 14
    | 2 => entLen e == 0
    | _ => false)
  && e % 2 ^ 7 == 0
  && (!entFb e || entMode e == 0)
  && !(entAopq e && entAtrn e)
  && (alpha || (!entAopq e && !entAtrn e))

/-! ### Elements and bits -/

/-- Cut a list into pieces of n. -/
def chunks (n : Nat) : Nat → List Byte → List (List Byte)
  | 0, _ => []
  | k + 1, l => l.take n :: chunks n k (l.drop n)

/-- The components of an element word, c0 from bit 0 (R185). -/
def splitComps : List Nat → Nat → List Nat
  | [], _ => []
  | w :: ws, v => v % 2 ^ w :: splitComps ws (v / 2 ^ w)

/-- The element word of component values. -/
def joinComps : List Nat → List Nat → Nat
  | w :: ws, v :: vs => v % 2 ^ w + 2 ^ w * joinComps ws vs
  | _, _ => 0

/-- The rows of a raw block as component values. -/
def blockRows (l : YLayout) (raw : List Byte) : List (List (List Nat)) :=
  (chunks (layoutElem l * layoutBw l) (layoutBh l) raw).map fun row =>
    (chunks (layoutElem l) (layoutBw l) row).map fun e => splitComps (layoutComps l) (leNat e)

/-- The raw bytes of rows of component values. -/
def rowsBytes (l : YLayout) (rows : List (List (List Nat))) : List Byte :=
  (rows.map fun row => (row.map fun e => leBytes (layoutElem l) (joinComps (layoutComps l) e)).flatten).flatten

/-- The bits of a byte, most significant first (R193). -/
def byteBits (b : Byte) : List Bool :=
  [b.getLsbD 7, b.getLsbD 6, b.getLsbD 5, b.getLsbD 4, b.getLsbD 3, b.getLsbD 2, b.getLsbD 1, b.getLsbD 0]

/-- The number that bits spell, most significant first. -/
def bitsNat (l : List Bool) : Nat := l.foldl (fun a b => 2 * a + b2n b) 0

/-- The low n bits of a number, most significant first. -/
def natBits : Nat → Nat → List Bool
  | 0, _ => []
  | n + 1, v => v.testBit n :: natBits n v

/-- Bits packed into n bytes from the most significant bit down, with zero bits to the end. -/
def packBits : Nat → List Bool → List Byte
  | 0, _ => []
  | n + 1, bs => BitVec.ofNat 8 (bitsNat ((bs.take 8) ++ List.replicate (8 - (bs.take 8).length) false))
      :: packBits n (bs.drop 8)

/-- Read n bits. -/
def readBits (n : Nat) (bs : List Bool) : Option (Nat × List Bool) :=
  if bs.length < n then none else some (bitsNat (bs.take n), bs.drop n)

/-! ### PRED -/

/-- The adaptation state of one component: A and N (R197). -/
structure Rice where
  a : Nat
  n : Nat
deriving DecidableEq, Repr

/-- The start of R197: A = N × 2^k0 with N = 4. -/
def riceInit (k0 : Nat) : Rice := ⟨4 * 2 ^ k0, 4⟩

/-- The parameter k: the smallest 0 ≤ k ≤ n with N × 2^k ≥ A, or n (R197). -/
def riceK (w : Nat) (s : Rice) : Nat := ((List.range (w + 1)).find? fun k => s.a ≤ s.n * 2 ^ k).getD w

/-- The update after a code (R197). -/
def riceStep (s : Rice) (m : Nat) : Rice :=
  if s.n + 1 = 32 then ⟨(s.a + m) / 2, 16⟩ else ⟨s.a + m, s.n + 1⟩

/-- The prediction of R194: whether the element is in column 0 and in row 0, and the neighbours a, b, c. -/
def ytcPred (p : Nat) (x0 y0 : Bool) (a b c : Nat) : Int :=
  if x0 && y0 then 0 else if y0 then a else if x0 then b else
  match p with
  | 0 => a
  | 1 => b
  | _ => if max a b ≤ c then (min a b : Int) else if c ≤ min a b then (max a b : Int) else (a : Int) + b - c

/-- The mapped residual m of a value (R195). -/
def ytcMap (w : Nat) (v : Nat) (pred : Int) : Nat :=
  let e := signed w (unsigned w ((v : Int) - pred))
  if 0 ≤ e then (2 * e).toNat else (-2 * e - 1).toNat

/-- The value of a mapped residual (R195, R197). -/
def ytcUnmap (w m : Nat) (pred : Int) : Nat :=
  let e : Int := if m % 2 = 0 then (m / 2 : Nat) else -(((m + 1) / 2 : Nat) : Int)
  unsigned w (pred + e)

/-- The code of m (R196). -/
def riceCode (w k m : Nat) : List Bool :=
  let q := m / 2 ^ k
  if q < 24 then List.replicate q true ++ false :: natBits k m else List.replicate 24 true ++ natBits w m

/-- One-bits up to 24, and the zero-bit that ends fewer (R196). -/
def readOnes : Nat → List Bool → Nat → Option (Nat × List Bool)
  | 0, bs, q => some (q, bs)
  | n + 1, true :: bs, q => readOnes n bs (q + 1)
  | _ + 1, false :: bs, q => some (q, bs)
  | _ + 1, [], _ => none

/-- Read one code; none where it is malformed or runs out of bits (R196, R198). -/
def riceRead (w k : Nat) (bs : List Bool) : Option (Nat × List Bool) :=
  match readOnes 24 bs 0 with
  | none => none
  | some (q, bs) =>
    if q = 24 then readBits w bs else
    match readBits k bs with
    | none => none
    | some (lo, bs) => if q * 2 ^ k + lo < 2 ^ w then some (q * 2 ^ k + lo, bs) else none

/-- The components of one element coded: widths, values, neighbours and states in step. -/
def codeComps (p : Nat) (x0 y0 : Bool) : List Nat → List Nat → List Nat → List Nat → List Nat → List Rice →
    List Bool × List Rice
  | w :: ws, v :: vs, a :: as, b :: bs, c :: cs, s :: ss =>
    let m := ytcMap w v (ytcPred p x0 y0 a b c)
    let r := codeComps p x0 y0 ws vs as bs cs ss
    (riceCode w (riceK w s) m ++ r.1, riceStep s m :: r.2)
  | _, _, _, _, _, _ => ([], [])

/-- One row coded: the elements, the row above, the left and above-left neighbours. -/
def codeRow (p : Nat) (ws : List Nat) (y0 : Bool) : Bool → List (List Nat) → List (List Nat) → List Nat → List Nat →
    List Rice → List Bool × List Rice
  | _, [], _, _, _, ss => ([], ss)
  | x0, v :: vs, above, left, diag, ss =>
    let b := above.headD (ws.map fun _ => 0)
    let r := codeComps p x0 y0 ws v left b diag ss
    let r' := codeRow p ws y0 false vs above.tail v b r.2
    (r.1 ++ r'.1, r'.2)

/-- All rows coded. -/
def codeRows (p : Nat) (ws : List Nat) : Bool → List (List (List Nat)) → List (List Nat) → List Rice →
    List Bool × List Rice
  | _, [], _, ss => ([], ss)
  | y0, row :: rows, above, ss =>
    let z := ws.map fun _ => 0
    let r := codeRow p ws y0 true row above z z ss
    let r' := codeRows p ws false rows row r.2
    (r.1 ++ r'.1, r'.2)

/-- A block coded as PRED with predictor p and initial parameters: its bits without padding and the final states
(R193). -/
def codePred (l : YLayout) (p : Nat) (k0 : List Nat) (raw : List Byte) : List Bool × List Rice :=
  let ws := layoutComps l
  let r := codeRows p ws true (blockRows l raw) [] (k0.map riceInit)
  (natBits 2 p ++ (k0.map fun k => natBits 4 k).flatten ++ r.1, r.2)

/-- The components of one element decoded. -/
def readComps (p : Nat) (x0 y0 : Bool) : List Nat → List Nat → List Nat → List Nat → List Rice → List Bool →
    Option (List Nat × List Rice × List Bool)
  | w :: ws, a :: as, b :: bs, c :: cs, s :: ss, bits =>
    match riceRead w (riceK w s) bits with
    | none => none
    | some (m, bits) =>
      match readComps p x0 y0 ws as bs cs ss bits with
      | none => none
      | some (vs, ss', bits) => some (ytcUnmap w m (ytcPred p x0 y0 a b c) :: vs, riceStep s m :: ss', bits)
  | _, _, _, _, _, bits => some ([], [], bits)

/-- One row of n elements decoded. -/
def readRow (p : Nat) (ws : List Nat) (y0 : Bool) : Nat → Bool → List (List Nat) → List Nat → List Nat → List Rice →
    List Bool → Option (List (List Nat) × List Rice × List Bool)
  | 0, _, _, _, _, ss, bits => some ([], ss, bits)
  | n + 1, x0, above, left, diag, ss, bits =>
    let b := above.headD (ws.map fun _ => 0)
    match readComps p x0 y0 ws left b diag ss bits with
    | none => none
    | some (v, ss, bits) =>
      match readRow p ws y0 n false above.tail v b ss bits with
      | none => none
      | some (vs, ss, bits) => some (v :: vs, ss, bits)

/-- n rows decoded. -/
def readRows (p : Nat) (ws : List Nat) (bw : Nat) : Nat → Bool → List (List Nat) → List Rice → List Bool →
    Option (List (List (List Nat)) × List Bool)
  | 0, _, _, _, bits => some ([], bits)
  | n + 1, y0, above, ss, bits =>
    let z := ws.map fun _ => 0
    match readRow p ws y0 bw true above z z ss bits with
    | none => none
    | some (row, ss, bits) =>
      match readRows p ws bw n false row ss bits with
      | none => none
      | some (rows, bits) => some (row :: rows, bits)

/-- The initial parameters of a PRED block, each at most its component's width (R193, R198). -/
def readK0 : List Nat → List Bool → Option (List Nat × List Bool)
  | [], bits => some ([], bits)
  | w :: ws, bits =>
    match readBits 4 bits with
    | none => none
    | some (k, bits) =>
      if w < k then none else
      match readK0 ws bits with
      | none => none
      | some (ks, bits) => some (k :: ks, bits)

/-- A PRED bitstream decoded to the raw bytes; none where it is malformed (R193 to R198). -/
def decodePred (l : YLayout) (stored : List Byte) : Option (List Byte) :=
  let ws := layoutComps l
  match readBits 2 (stored.map byteBits).flatten with
  | none => none
  | some (p, bits) =>
    if p = 3 then none else
    match readK0 ws bits with
    | none => none
    | some (k0, bits) =>
      match readRows p ws (layoutBw l) (layoutBh l) true [] (k0.map riceInit) bits with
      | none => none
      | some (rows, rest) => if rest.any id then none else some (rowsBytes l rows)

/-- A FLAT block decoded (R192, R198). -/
def decodeFlat (l : YLayout) (stored : List Byte) : Option (List Byte) :=
  let e := layoutElem l
  if (stored.drop e).any fun b => b ≠ 0 then none
  else some ((List.replicate (512 / e) (stored.take e)).flatten)

/-- A stored block decoded under its entry: none where it is malformed (R191 to R198). -/
def decodeStored (l : YLayout) (e : Nat) (slot : List Byte) : Option (List Byte) :=
  let stored := slot.take (32 * (entLen e + 1))
  match entMode e with
  | 0 => some stored
  | 1 => decodePred l stored
  | 2 => decodeFlat l stored
  | _ => none

/-! ### The choice of a stored form (R200) -/

/-- Is every element of the block equal (R192)? -/
def blockFlat (l : YLayout) (raw : List Byte) : Bool :=
  raw = (List.replicate (512 / layoutElem l) (raw.take (layoutElem l))).flatten

/-- A coded block: its entry without alpha flags, its stored bytes, the adaptation states a PRED result ended with, and
which counters it takes part in (FALLBACK, MISMATCH). -/
structure Coded where
  mode : Nat
  stored : List Byte
  ends : Option (List Rice)
  fb : Bool
  fallback : Bool
  mismatch : Bool
deriving DecidableEq, Repr

/-- A block stored RAW (R191). -/
def codedRaw (raw : List Byte) (fb fallback : Bool) : Coded := ⟨0, raw, none, fb, fallback, fb⟩

/-- The PRED candidate with the fewest bits; a tie goes to the lower P (R200). -/
def bestPred (l : YLayout) (k0 : List Nat) (raw : List Byte) (ps : List Nat) : Option (List Bool × List Rice) :=
  ps.foldl (fun best p =>
    let c := codePred l p k0 raw
    match best with
    | none => some c
    | some b => if c.1.length < b.1.length then some c else some b) none

/-- The stored form under the enables of FX_f.CTRL, with the verify of R201: `upset` says that the verify differed. -/
def codeBlock (l : YLayout) (ctrl : Word) (k0 : List Nat) (raw : List Byte) (upset : Bool) : Coded :=
  let ps := (if bit ctrl 0 then [0] else []) ++ (if bit ctrl 1 then [1] else []) ++ (if bit ctrl 2 then [2] else [])
  if bit ctrl 4 then codedRaw raw false false
  else if blockFlat l raw && bit ctrl 3 then
    let st := padTo 32 (raw.take (layoutElem l))
    if upset || decodeFlat l st ≠ some raw then codedRaw raw true true else ⟨2, st, none, false, false, false⟩
  else
    match bestPred l k0 raw ps with
    | none => codedRaw raw false false
    | some (bits, ends) =>
      let units := ceilDiv bits.length 256
      if 16 ≤ units then codedRaw raw false true
      else
        let st := packBits (32 * units) bits
        if upset || decodePred l st ≠ some raw then codedRaw raw true true else ⟨1, st, some ends, false, false, false⟩

/-- k0 for the next block of a layout: min(k, 15) of the states the last PRED block ended with, 0 without one (R200). -/
def nextK0 (l : YLayout) (ends : Option (List Rice)) : List Nat :=
  match ends with
  | none => (layoutComps l).map fun _ => 0
  | some ss => (List.zip (layoutComps l) ss).map fun p => min (riceK p.1 p.2) 15

end Sys2Proof.Machine
end

