-- ==== Sys2Proof/Machine/State.lean ====
section
/-!
DEFINITION. The state of the YL9720: everything the spec gives the block, as plain data, and the queue of the commands that
wait. Registers stand in `RegFile` under their parameter IDs (Machine/Catalogue.lean holds their fields and reset values);
the rest is one structure per block of R27.
-/
namespace Sys2Proof.Machine

/-- No command of the block ends in a fault: what the spec calls a failure is an event, a status bit, a reason code or a
counted drop, each of them a next state. -/
inductive Fault where
deriving DecidableEq, Repr

/-- The reason a command has no meaning. -/
inductive Refusal where
  /-- Raised by an arm of exec whose command has no meaning yet. Safe: nothing is claimed of it. -/
  | notModelled (mnemonic : String)
deriving DecidableEq, Repr

/-! ### Registers -/

/-- What the live counters did in one clock (R52): the clock, the counters as they stood when it began, and each count made in it, with its
ID and whether it is a maximum. -/
structure LiveClock where
  at_ : Nat
  before : List (Nat × Nat)
  counts : List (Nat × Nat × Bool)
deriving DecidableEq, Repr

/-- The registers by parameter ID. Each map lists only what differs from the default: for `held` the reset word, for every
counter 0. -/
structure RegFile where
  /-- Held registers. -/
  held : List (Nat × Word)
  /-- Cumulative 64-bit counters, by the ID of the lower word. -/
  ctrs : List (Nat × Nat)
  /-- Live counters of the sub-frame that runs (R68), and what the last clock that counted did to them (R52). -/
  live : List (Nat × Nat)
  clock : LiveClock
  /-- The snapshot bank (R68) and the Ledger's snapshots (R338). -/
  snap : List (Nat × Nat)
  /-- The hold registers of R20, by the ID of the lower word. -/
  hold : List (Nat × Word)
  /-- The staging set (R54): the class T bits as staged, by ID. -/
  staged : List (Nat × Word)
deriving DecidableEq, Repr

/-! ### Event unit -/

/-- A message that waits in pool 44 (R420). -/
structure EvMsg where
  vec : Nat
  sev : Nat
  src : Nat
deriving DecidableEq, Repr

structure Evu where
  /-- The queue of messages, oldest first (pool 44). -/
  queue : List EvMsg
  /-- Pulses that wait: those of the AON domain that the PMU keeps while CTRL is unpowered (R419), and those in their crossings while CTRL has
  no clock (R531, R540): source, CAP_LO, CAP_HI. -/
  kept : List (Nat × Word × Word)
  /-- Sources handed to the firmware (R422, R423), oldest first. -/
  inbox : List Nat
deriving DecidableEq, Repr

/-! ### Ledger -/

/-- The counters of one pool's slice (R337). INFLIGHT is none of them: it is the population of the pool's occupancy table
(State.occupancy). -/
structure Pool where
  issued : Nat
  returned : Nat
  produced : Nat
  dropped : Nat
deriving DecidableEq, Repr

/-! ### Time -/

/-- One timebase (R427, R428): `v` is the counter under SEPARATE; base, anchor and rate give the view under UNIFIED, all in
2^-30 ns; `adj` holds adjustments that wait for their TIME_CLK edge (R429): (true, x) a step in 2^-30 ns, (false, r) a
rate. -/
structure Timebase where
  v : Int
  base : Int
  anchor : Int
  rate : Int
  adj : List (Bool × Int)
deriving DecidableEq, Repr

/-- A timed-output channel (R440): the number of the next rising edge, the local time in ns at which the running pulse
ends, whether one edge is due at once because the view has passed edges of a periodic channel (R441), and whether an edge has risen since the
channel was armed (R443, R510). -/
structure TimedOut where
  k : Nat
  pulseEnd : Option Nat
  due : Bool
  fired : Bool
deriving DecidableEq, Repr

/-- A strobe (R444): the raster tick whose edge is due, and the local time in ns at which the running pulse ends. -/
structure Strobe where
  due : Option Nat
  pulseEnd : Option Nat
deriving DecidableEq, Repr

/-- An entry of the transmit timestamp queue (R438, R439): the stamp in 2^-16 ns, the time it was queued, and the offset
from its exchange once its Delay_Resp has arrived; `noResp` once 1 s has passed without one. -/
structure TsEntry where
  stamp : Int
  seqId : BitVec 16
  msgType : BitVec 4
  tag : Nat
  queuedAt : Nat
  offset : Option Int
  noResp : Bool
deriving DecidableEq, Repr

structure Ptp where
  link : Bool
  locked : Bool
  /-- portState as PTP.STATUS codes it. -/
  port : Nat
  /-- Last offsetFromMaster, 2^-16 ns. -/
  offset : Int
  /-- Consecutive offsets of at most 100 ns (R435). -/
  good : Nat
  /-- The settings beyond PTP.CFG and PTP.LAT: the payload of the last accepted PTP_CONFIG. -/
  settings : List Byte
  /-- Count of event messages transmitted, modulo 256 (R438). -/
  tag : Nat
  queue : List TsEntry
  /-- Stamps of the clock in progress that have found the queue full: each is dropped at its end unless a read has freed an entry (R438). -/
  excess : List TsEntry
  /-- The messages that the protocol has received and sent, newest first: the argument of the protocol functions of Config. -/
  seen : List PtpSeen
  /-- Accepted frames that wait for the firmware, each with its stamp, oldest first. -/
  inbox : List (PtpFrame × Int)
  /-- When the last Sync arrived. -/
  lastSync : Nat
deriving DecidableEq, Repr

structure TimeUnit where
  /-- TIME_CLK edges since TIME powered up: C is 2^32 times it, in 2^-30 ns (R428). -/
  edges : Nat
  tb : Vector Timebase 4
  /-- The hold registers of the readout blocks (R431): TB0 to TB3, C and TB0 at the last tick, in 2^-16 ns. -/
  holds : Vector Nat 6
  /-- TB0's view at the edge of the last tick, in 2^-16 ns. -/
  tickView : Nat
  outs : Vector TimedOut 4
  strobes : Vector Strobe 4
  /-- The pins TIME_OUT0 to TIME_OUT3 follow from these fields (R445). The edge until which the TICK pulse is high. -/
  tickHigh : Nat
  ptp : Ptp
deriving DecidableEq, Repr

/-- A tick as it is broadcast (R31): its index, the indices skipped before it, one more when it ended a stretch (R47), and the tick
generator's view at its edge in 2^-16 ns (R455). `swap` and `late` are what the tick generator's edge decided of the Refocus tables (R139,
R140): a swap, or a rebuild that is late. -/
structure TickMsg where
  idx : Nat
  skipped : Nat
  view : Nat
  swap : Bool
  late : Bool
deriving DecidableEq, Repr

structure TickGen where
  /-- The last tick's index, none before the first. -/
  last : Option Nat
  /-- TIME_TICK.BASE, the index base B (R48). -/
  base : Nat
  /-- No tick has fired since RUN was set: the next one is no jump (R46). -/
  first : Bool
  /-- A backward jump has stopped the ticks until the index again exceeds the last (R47). -/
  stretched : Bool
  /-- When your last write of RUN came, when the hardware last set it, and whether a hardware update of RUN waits for the next clock, your
  write having won in this one (R16, R443). -/
  hostRunAt : Option Nat
  hwRunAt : Option Nat
  runLate : Bool
  /-- Ticks that are on their way to the domains, oldest first. -/
  toArrive : List TickMsg
  /-- The edge of the last tick fired, or of TIME power-up: the grid of the check strobes (R339). -/
  gridFrom : Nat
  /-- Check strobes that have run since then. -/
  strobesRun : Nat
deriving DecidableEq, Repr

/-! ### Trays and firmware -/

/-- A response that has not been written yet (R382, R384): status, whether it is final, reason and payload. -/
structure Resp where
  /-- When it was made: a response waits for a free entry from then on (R384). -/
  at_ : Nat
  tag : Nat
  opcode : Nat
  status : Nat
  final : Bool
  reason : Nat
  payload : List Byte
  /-- The index of its command (R376). -/
  index : Nat
deriving DecidableEq, Repr

structure Tray where
  cmdTail : Nat
  cmdHead : Nat
  respTail : Nat
  respHead : Nat
  /-- Bytes of the command ring and of the response ring, by offset; an unlisted byte reads 0. -/
  cmdRing : List Host.Cell
  respRing : List Host.Cell
  dbErr : Bool
  /-- Responses held in order (R384). -/
  held : List Resp
  /-- E33 has been raised since the ring last emptied. -/
  fullRaised : Bool
deriving DecidableEq, Repr

/-- A notice record (R401): SEQ, TICK and the 16 payload bytes. -/
structure Notice where
  seq : Nat
  tick : Nat
  payload : List Byte
deriving DecidableEq, Repr

/-- A TICK_WAIT that has given its interim response: the command and the target index. -/
structure TickWaiter where
  cmd : Cmd
  target : Nat
deriving DecidableEq, Repr

/-- What the firmware does of an accepted FW_UPDATE before the warm restart (R555). -/
structure Dk where
  /-- The firmware runs and takes commands. -/
  running : Bool
  /-- A warm restart runs; its cause (0 host write, 1 watchdog) goes into the notice. -/
  restarting : Option Nat
  /-- When the heartbeat last changed. -/
  lastBeat : Nat
  /-- The Tray that holds exposure ownership (R394). -/
  owner : Fin 8
  /-- Commands taken that have no final response, in the order taken (R390). -/
  taken : List Cmd
  /-- Which of them have started their SLOW work (R386, R392). -/
  started : List Cmd
  tickWaits : List TickWaiter
  /-- Doorbells in the order in which their commands are taken: when each arrived, its Tray and how many of its commands are not taken yet
  (R391). -/
  doorbells : List (Nat × Nat × Nat)
  /-- Warm restarts since the firmware was loaded. -/
  restarts : Nat
  notices : Vector Notice 4
  /-- ICS version fields are set (R551). -/
  icsSet : Bool
  /-- The staged image in SRAM, by offset from 0x080_0000 of the window, and the length that GO gave. -/
  image : List Host.Cell
  imageLen : Nat
  /-- SVN_MIN as raised by FW_UPDATE since reset (R555). -/
  svnRaised : Nat
deriving DecidableEq, Repr

/-! ### UCIe -/

/-- The states of a module (UCIE_x.STATUS.STATE). -/
inductive LinkState where
  | down | train | up | lowPower
deriving DecidableEq, Repr

/-- A completion that waits for VC2 credit (R366): its tag, status and data. -/
structure Cpl where
  tag : Nat
  status : Nat
  data : List Byte
deriving DecidableEq, Repr

structure Ucie where
  link : LinkState
  rate : Nat
  configured : Bool
  repaired : Bool
  /-- The host's advertisement at link-up, VC2 and VC3 (UCIE_x.HOST_CRED). -/
  adv2 : Nat
  adv3 : Nat
  /-- VC2 and VC3 credits that the YL9720 holds. -/
  cr2 : Nat
  cr3 : Nat
  /-- The INIT CRET of the host has been received since link-up (R361). -/
  init : Bool
  /-- Receive slots freed since the last CRET, VC0 to VC3 (R360). -/
  freed : Vector Nat 4
  /-- Read tags held (R368). -/
  tags : List Nat
  /-- Received transactions that have not taken effect, oldest first: one that waits for a Fixer slot and a write credit (R105) or for the
  DRAM controller (R316, R343), and what was received behind it (R369); each with whether it holds its receive slots, which none that was
  received before a link-up does (R337). -/
  waiting : List (Ist × Bool)
  cpls : List Cpl
  /-- Transactions sent, newest first, as their header and data bytes. -/
  sent : List (List Byte)
  /-- The per-module EVENT sequence number (R370). -/
  evSeq : Nat
deriving DecidableEq, Repr

/-! ### NVM -/

/-- What a read of a page reports beside its bytes (R517, R518). -/
structure NvmPage where
  /-- 0 VALID, 1 BLANK, 2 TORN. -/
  st : Nat
  torn : Nat
  /-- The groups with one wrong bit, which a read corrects, and those that are uncorrectable. -/
  ce : Nat
  ue : Nat
deriving DecidableEq, Repr

/-- What a request of the NVM's port is for, so that its end can report it: a page write, or the reads of NVM_READ and LOG_READ. -/
inductive NvmUse where
  | record
  | userWrite (c : Cmd)
  /-- The header page of a PARAM_SAVE. -/
  | save (c : Cmd)
  | tripPage
  /-- The second page of the record of a PPI_LOAD (R462). -/
  | ppi (c : Cmd)
  | read (c : Cmd)
  | logRead (c : Cmd)
deriving DecidableEq, Repr

def NvmUse.writes (u : NvmUse) : Bool := match u with | .read _ => false | .logRead _ => false | _ => true

/-- A request that waits for the port, or the page write that runs (R515): of a write the page, its 64 bytes and the writer (0 firmware,
1 PMU). -/
structure NvmJob where
  page : Nat
  bytes : List Byte
  writer : Nat
  use : NvmUse
deriving DecidableEq, Repr

structure Nvm where
  /-- Bytes by page * 64 + offset; an unlisted byte reads 0xFF (BLANK, R517). -/
  bytes : List Host.Cell
  /-- Page states; an unlisted page is BLANK. -/
  pages : List (Nat × NvmPage)
  /-- Requests at the port in the order of their arrival: the page write that runs comes first. -/
  jobs : List NvmJob
  /-- What reads have returned whose results wait for the stack (R328, R385). -/
  results : List (Cmd × List Byte)
  /-- A trip page has been written that the firmware has not copied into the log (R526, log entry 44). -/
  tripDue : Bool
  /-- When the running write started. -/
  since : Nat
  /-- The page last written or being written, and the writer (NVM.STATUS). -/
  lastPage : Nat
  lastWriter : Nat
  /-- TORN pages reported since power-on (R529). -/
  tornSeen : List Nat
deriving DecidableEq, Repr

/-! ### DRAM controller -/

inductive DmcState where
  | train | run | selfRefresh | failed
deriving DecidableEq, Repr

/-- The two stores of a YTC block as one unit (R207): its slot and entry addresses, what they hold afterwards, and the reads of the
tile-flag update that follow (R202). -/
structure StoreUnit where
  addr : Nat
  ent : Nat
  stored : List Byte
  entry : Nat
  reads : List DramReq
deriving DecidableEq, Repr

/-- A request in a pseudo-channel's scheduler or waiting for its token (R316). -/
structure DReq where
  /-- Its number in the pseudo-channel, in the order in which tokens were asked for. -/
  num : Nat
  /-- The order in which requests entered the schedulers, over all pseudo-channels (R207). -/
  seq : Nat
  req : DramReq
  /-- The class it now ranks in, the class of issue, and whether its token is a shared one. -/
  cls : DClass
  tok : DClass
  shared : Bool
  /-- When it asked for its token. -/
  asked : Nat
  aged : Bool
  issued : Bool
  /-- How often a row hit has passed it (R318). -/
  passed : Nat
  /-- E196 has been raised for it. -/
  late : Bool
  /-- The Fixer block that it serves, by the block's tag. -/
  owner : Option Nat
  /-- The unit that it stores a part of: it takes effect when both of its stores have retired. -/
  unit : Option StoreUnit
deriving DecidableEq, Repr

structure PseudoCh where
  next : Nat
  queued : List DReq
  waiting : List DReq
  /-- RT-P grants since the last aged request was issued (R320). -/
  rtpGrants : Nat
  /-- Open rows: bank key SID * 16 + bank, and the row. -/
  rows : List (Nat × Nat)
deriving DecidableEq, Repr

structure Dmc where
  state : DmcState
  ref2x : Bool
  sidPd : BitVec 8
  /-- Since when each SID has had no request queued and no row open. -/
  sidIdle : Vector Nat 8
  pcs : Vector PseudoCh 64
  /-- The number of the next request that enters a scheduler. -/
  serial : Nat
  /-- Refresh debt of each bank by p * 128 + SID * 16 + bank; unlisted is 0 (R323). -/
  debt : List (Nat × Int)
  /-- By the same key, when a bank's refresh interval in progress began, in quarters of a nanosecond, and whether the short interval
  applies to it (R322); for an unlisted bank, since the controller last began to refresh. -/
  refT : List (Nat × Nat × Bool)
  refFrom : Nat × Bool
  /-- When each channel's last retraining pass started (R324). -/
  lastPass : Vector Nat 32
  /-- Pseudo-channels whose pause of the present pass is deferred (R325), until when at most, and whether the pass has found a low margin
  already. -/
  deferred : List (Nat × Nat × Bool)
  /-- Pauses (R324): the pseudo-channel, and when its pause starts and ends. -/
  pauses : List (Nat × Nat × Nat)
  /-- Channels whose DC_CE has been raised in this sub-frame (R329). -/
  ceRaised : BitVec 32
  /-- The next beat of the patrol scrub (R331), and when it is due, in 2^-32 of 4 ns. -/
  scrubPos : Nat
  scrubAt : Nat
  /-- Stack bytes by DRAM address; an unlisted byte reads 0 (R326). -/
  mem : List Host.Cell
  /-- Beats in whose cells an error has arisen that no read has found, and whether more than one bit is wrong (R329, R330). -/
  upset : List (Nat × Bool)
  /-- When the on-die correction counts are read next (R311). -/
  odeccDue : Nat
  /-- Poisoned 64-bit beats, rising (R330). -/
  poison : List (Nat × Unit)
  /-- Block-state entries, by address, whose block has been stored since their beat was poisoned: the fault has ended for that block
  (R106). -/
  healed : List (Nat × Unit)
deriving DecidableEq, Repr

/-! ### Power, clocks, start-up -/

/-- The mode codes of HOST.MODE (R485). -/
inductive Mode where
  | latent | safelight | standby | flat | field | service
deriving DecidableEq, Repr

/-- Is the device awake, at rest, or asleep in SAFELIGHT (R493, R509)? `entering` is a running entry before its sleep
request. -/
inductive Sleep where
  | awake | entering | resting | safelight
deriving DecidableEq, Repr

/-- A mode transition that runs (R485 to R488): its command, where it leads, the REST bit, when MODE_SET was taken, and whether its
second half has begun: on the way out of STANDBY the kept regions are checked and the panel comes up or trains (R496), on the way
out of FLAT, FIELD and SERVICE the raster has stopped (R487, R501, R507). -/
structure Transition where
  cmd : Option Cmd
  target : Mode
  rest : Bool
  at_ : Nat
  second : Bool
deriving DecidableEq, Repr

/-- HOST.BOOT.STATE (R545). -/
inductive BootState where
  | aonInit | supplies | waitFw | verify | dramTrain | fwRunning | failed
deriving DecidableEq, Repr

/-- Why every domain except AON goes down, with a restart from the main-supply step to follow: a clock that does not relock
(R535), or a main supply that failed (R547). A trip is `tripped`. -/
inductive Fall where
  | none | clock | supply
deriving DecidableEq, Repr

structure Pmu where
  mode : Mode
  /-- The transition that runs. -/
  trans : Option Transition
  rest : Bool
  sleep : Sleep
  /-- When the sleep request was made. -/
  sleepAt : Nat
  powered : BitVec 24
  clamped : BitVec 24
  pwrEn : BitVec 6
  pwrPg : BitVec 6
  /-- When each PWR_EN was raised or its PWR_PG last fell; when each PWR_PG last rose; when each PWR_EN was last dropped. -/
  pwrEnAt : Vector Nat 6
  pwrPgAt : Vector Nat 6
  pwrOffAt : Vector Nat 6
  /-- The rails whose power good has been high since their enable rose (R547). -/
  pwrRose : BitVec 6
  boot : BootState
  bootErr : Nat
  attempts : Nat
  /-- The fuses were not read (R545 step 3). -/
  fuseFail : Bool
  /-- The load window is open (R549). -/
  window : Bool
  /-- When a failed supply is tried again (R547). -/
  retryAt : Option Nat
  /-- The contents of the retention banks, by the number under which Config.bankBytes has them, and the signatures that were stored of them
  (R493). -/
  banks : Vector Nat 8
  sigs : Vector Word 8
  /-- The eight retention banks hold their contents at retention voltage. -/
  retained : Bool
  /-- The start-up that runs, if any, follows a wake from SAFELIGHT (R503): its firmware reports the move once it starts. -/
  woke : Bool
  /-- The latched time alarm and a wake that arrived while an entry ran (R509, R510). -/
  alarm : Bool
  wakeLatched : Option WakeSrc
  /-- The AON cycle of the last wake (R510). -/
  wokeAt : Option Nat
  aonSram : List Host.Cell
  /-- The first hogel column of PL_SB_1, 32 * QW, as it was when the image was copied (R498). -/
  safeCut : Nat
  /-- The next SAFELIGHT refresh is due at this time (R500); none while no window is shown. -/
  refreshAt : Option Nat
  /-- A trip has powered the device down and waits for its restart (R481, R482). -/
  tripped : Bool
  /-- A diode was open or shorted after the trip: there is no automatic restart until VAUX is cycled (R482). -/
  stuckOff : Bool
  /-- After entry into LATENT nothing answers until VAUX is cycled (R507). -/
  latentHeld : Bool
  vaux : Bool
  xtal : Bool
  /-- PLL lock by the bits of CLK.LOCK, the relock attempts made, and when the current loss began (R533). -/
  lock : BitVec 17
  tries : Vector Nat 17
  lossAt : Vector Nat 17
  /-- When UA's sideband became active (R355). -/
  uaActiveAt : Nat
  /-- The firmware has reported its start after a warm restart or boot (E2 raised). -/
  started : Bool
  /-- PMU-held detail of a trip, for the trip page (R526): node, value, mode, tick. -/
  tripDetail : Option (Nat × Int × Nat × Nat)
  /-- The trip page has been written. -/
  tripPaged : Bool
  /-- The causes that the trip in progress has met, nodes by their number and diode d as 24 + d, and the nodes that it has added to its record
  (R481). -/
  tripSeen : List Nat
  tripMore : List Nat
  fall : Fall
  /-- The rails go down one after the other (R546): the one that was lowered last, and when. -/
  lowering : Option (Nat × Nat)
  /-- UB was not configured in its window and stays down until the next cold reset (R355). -/
  ubOff : Bool
  /-- Records that the firmware writes at its next start: a brown-out (R506), a supply failure (R547), a retention failure that
  forced a boot (R494, R526). -/
  borDue : Bool
  failDue : Bool
  retDue : Bool
  /-- No firmware has started since the last cold reset (R523). -/
  cold : Bool
deriving DecidableEq, Repr

/-! ### Plates and Fixers -/

/-- The geometry of a buffer (R86): type and format codes of R83 and R84, the size of one view, the view grid and A8. -/
structure Geom where
  typ : Nat
  fmt : Nat
  w : Nat
  h : Nat
  vx : Nat
  vy : Nat
  a8 : Bool
deriving DecidableEq, Repr

/-- The states of a back buffer (PLATE_p.STATUS.BACK). -/
inductive BackState where
  | closed | opening | opened | sealed | ready
deriving DecidableEq, Repr

/-- One of a slot's two buffers: its geometry, its reservation (size 0: none), the write credits in flight on it, whether
it holds data, and its tile flags (R204): bit 0 OPAQUE, bit 1 TRANSPARENT, `flags` listing the tiles that differ from
`flagBase`. -/
structure Buf where
  geom : Option Geom
  base : Nat
  size : Nat
  credits : Nat
  hasData : Bool
  flagBase : Nat
  flags : List (Nat × Nat)
deriving DecidableEq, Repr

/-- A PLATE_OPEN that runs (R96): its command, the new geometry, INIT, and the range that the new reservation takes. -/
structure Opening where
  cmd : Cmd
  geom : Geom
  init : Nat
  base : Nat
  size : Nat
deriving DecidableEq, Repr

structure PlateSlot where
  bufs : Vector Buf 2
  /-- Which buffer has the front role. -/
  front : Fin 2
  /-- FRONT_VALID: the slot has a plate in force. -/
  inForce : Bool
  back : BackState
  /-- The PLATE_OPEN that runs while the state is OPENING. -/
  opening : Option Opening
  /-- When the back buffer last became ready (R52). -/
  readyAt : Nat
deriving DecidableEq, Repr

/-- The stage of a block in a Fixer (R105, R106, R200, R202): its assembly is filling; flushed as partial; its unwritten bytes are being
read; complete; coded, with its two writes waiting for their DRAM tokens; or its writes are with the DRAM scheduler. -/
inductive FixStage where
  | filling
  | flushed
  | merging
  | complete
  | coded (c : Coded) (entry : Nat)
  | handed (c : Coded) (entry : Nat)
deriving DecidableEq, Repr

/-- A block in a Fixer: its tag, by which its DRAM requests name it, the slot and buffer it belongs to, its plane and block number, its
DRAM addresses, layout, whether its plane is an alpha plane, the 512 bytes and the mask of those written. -/
structure FixBlk where
  tag : Nat
  slot : Fin 8
  buf : Fin 2
  plane : Nat
  blk : Nat
  addr : Nat
  entAddr : Nat
  lay : YLayout
  alpha : Bool
  raw : List Byte
  mask : Nat
  stage : FixStage
deriving DecidableEq, Repr

/-- One Fixer: how many blocks it has taken, its blocks in order of arrival, and per layout the states the last stored PRED block ended
with (R200). -/
structure Fixer where
  next : Nat
  blks : List FixBlk
  ends : Vector (Option (List Rice)) 7
deriving DecidableEq, Repr

/-! ### Exposures -/

/-- A pending committed set (R57, R59): its target, its COMMIT, its T settings, whether it holds an exposure, the ACTION of
each slot (0 NONE, 1 KEEP, 2 NEW) and the N and alignment it was accepted with. -/
structure PendSet where
  target : Nat
  cmd : Cmd
  fields : List (Nat × Word)
  hasExpo : Bool
  actions : List Nat
  changesN : Bool
  nLog2 : Nat
deriving DecidableEq, Repr

/-- SERVICE_PATTERN (R511): the pattern code, the quadrant mask and the colour. -/
structure Pattern where
  code : Nat
  quads : Nat
  r : Nat
  g : Nat
  b : Nat
deriving DecidableEq, Repr

structure Expo where
  pend : List PendSet
  /-- Index of the current sub-frame's tick, and of the current raster sub-frame's tick. -/
  tick : Nat
  rasterTick : Nat
  /-- Has a tick arrived since power-up? -/
  ticked : Bool
  applied : Nat
  snapSeq : Nat
  /-- Masks in force (R64, R65). -/
  hold : BitVec 8
  transp : BitVec 8
  /-- The slots in blend order as last resolved, front first (R67, R110). -/
  order : List Nat
  /-- EXPO.STATUS as latched with the snapshot bank (R70): hold, transparent, stop, D. -/
  latHold : BitVec 8
  latTransp : BitVec 8
  latStop : Nat
  latD2 : Bool
  /-- The slots whose staged ACTION is KEEP by default: those with a plate in force when the staging set opened (R92). -/
  stageKeep : BitVec 8
  /-- The throttle stop in force (0 to 3), whether D = 2, and a scheduled change: the stop from which the cascade starts, or the one of
  a lift, and its tick (R475, R477). -/
  stop : Nat
  d2 : Bool
  sched : Option (Nat × Nat)
  pattern : Pattern
  /-- RASTER.SIZE as the last tick latched it for DSC.PPS_k (R19, R251). -/
  ppsSize : Word
  /-- A pattern that waits for the next tick, with its command. -/
  patternNext : Option (Cmd × Pattern)
deriving DecidableEq, Repr

/-! ### Ray map and Refocus -/

structure RayMapSt where
  /-- A ray map is loaded. -/
  loaded : Bool
  /-- Region records by 32 * ry + rx, as 1,088 bytes (R125). -/
  recs : List (Nat × List Byte)
  coeff : Coeff
  /-- Clusters whose lens store holds the ray map in force (R124, R127). -/
  lensFilled : BitVec 12
  /-- The bound store (R168) by (32 * ry + rx) * 4 + steer state. -/
  bounds : List (Nat × DirBound)
deriving DecidableEq, Repr

/-- A Refocus generation: its number, and its entries by 32 * ry + rx; an unlisted entry is the identity. -/
structure RfGen where
  gen : Nat
  entries : List (Nat × RfEntry)
deriving DecidableEq, Repr

structure Refocus where
  /-- The active and the inactive table of each cluster, as the generations written into them (R133, R138). -/
  tabA : Vector RfGen 12
  tabB : Vector RfGen 12
  /-- RFC.STATUS.ACTIVE: table B is active. -/
  active : Bool
  genActive : Nat
  /-- The most recent generation number. -/
  gen : Nat
  ready : Bool
  busy : Bool
  busyAt : Nat
  /-- READY was set at this time: a tick of the same TIME_CLK does not see it (R139). -/
  readyAt : Nat
  /-- The generation being built, and the panel field it captured (R138). -/
  building : RfGen
  buildTemps : List (Nat × Int)
  /-- Temperature that the most recently built table used for each region; unlisted is T_REF (R137). -/
  used : List (Nat × Int)
  /-- A trigger other than THM is kept while FREEZE = 1 (R141). -/
  kept : Bool
  /-- The generation in force and the three before it (R144). -/
  history : List RfGen
  snapGen : Nat
deriving DecidableEq, Repr

/-! ### Correction tables -/

structure CorrSt where
  /-- Transfer tables X_R, X_G, X_B: key 4096 * channel + n (R221). -/
  xfer : List (Nat × Nat)
  /-- Overdrive entries by their index (((3b + j) * 3 + ch) * 1089 + 33 n_o + n_t) (R226). -/
  od : List (Nat × Nat)
  steps : Vector Nat 8
  bounds : List Int
  /-- Base Dodge maps as the profile loaded them, per quadrant and plane: key q * 8 + plane, raw plane bytes (R449). -/
  base : List (Nat × List Byte)
deriving DecidableEq, Repr

/-! ### Raster of one quadrant -/

/-- EASEL_q.STATUS.STATE. -/
inductive RasterState where
  | idle | running | aborted
deriving DecidableEq, Repr

/-- A strip that holds a token (R176): its hogel row and number, its skip list once Mask has made it (per plate of the blend
list: 0 kept, 1 SKIPPED, 2 OCCLUDED, 3 DORMANT), the engine it was handed to, and the slot addresses of the blocks fetched for it. -/
structure Strip where
  row : Nat
  m : Nat
  marks : Option (List Nat)
  engine : Option Nat
  fetched : List Nat
deriving DecidableEq, Repr

/-- A cluster cache (R181): whose each of its 16 ways is (a slot, 8 the residual plane; none before a division), and its lines, a way and
the slot address that it holds a block of, most recently used first. A line's content is what the stack holds at its address: a store
drops the line first (R182). -/
structure ClusterCache where
  ways : List Nat
  lines : List (Nat × Nat)
deriving DecidableEq, Repr

/-- The caches of the clusters and engines (R181): the blend list at the last division, the cluster caches, and for each engine the blocks
whose texels its texel cache holds, by slot address and bytes taken, most recent first. -/
structure Caches where
  blend : List Nat
  clusters : Vector ClusterCache 12
  texels : Vector (List (Nat × Nat)) 96
deriving DecidableEq, Repr

structure Easel where
  st : RasterState
  /-- The raster tick's index, steer state and light-field frame of the sub-frame in progress (R43, R79). -/
  k : Nat
  steer : Nat
  frame : Nat
  /-- When the raster tick arrived, C of R235 and the next line period to start. -/
  arrival : Nat
  cyc : Nat
  period : Nat
  /-- The arrival of the raster tick before, none when C is unavailable (R235). -/
  prevArrival : Option Nat
  /-- Hogel rows allocated and the strips delivered of each: row and a mask of 32. -/
  rows : List (Nat × Nat)
  nextRow : Nat
  /-- Lines whose correction has started, and lines that the port has sent. -/
  corrected : Nat
  sentLines : Nat
  /-- Line-buffer pixels: key (y % 64) * 16384 + x. -/
  buf : List (Nat × Rgba)
  /-- Stage 5 output of lines in correction, encoding and sending: key as buf, a 32-bit word (R253). -/
  outw : List (Nat × Word)
  urg : Urgency
  lead : Nat
  panicked : Bool
  /-- When the urgency state last changed, for the cycle counts of R184. -/
  urgAt : Nat
  pfsValid : Bool
  /-- Was the store written in every line so far in this sub-frame (R225)? -/
  pfsWhole : Bool
  /-- New store bytes of the block row in work: key channel * 2^28 + y * 2^14 + x (R224). -/
  pfsNew : List (Nat × Nat)
  /-- The states that the Easel codec's last stored PRED block ended with (R200, R249). -/
  codecEnds : Option (List Rice)
  /-- The line at which an aborted sub-frame sends its abort message, and the cause (R246). -/
  abort : Option (Nat × Nat)
  band : Band
  bandFirst : Bool
  /-- STEPS of BAND as the last tick latched it (OD_q.STATUS, R233). -/
  odSteps : Nat
  /-- The running CRC of each Loupe rectangle, those checked in this sub-frame and those that lost lines (R255 to R257). -/
  crcs : Vector Word 16
  checked : BitVec 16
  /-- Strips that hold a token, in the order of R176. -/
  strips : List Strip
  /-- The engine that the last strip went to (R177). -/
  lastEngine : Nat
  /-- Plates not yet seen unculled in this sub-frame; dormant plates per steer state (R174). -/
  culled : BitVec 8
  dormant : Vector (BitVec 8) 4
  /-- Gate pins: GCK[3:0], GSP, GOE (R279). -/
  gck : BitVec 4
  gsp : Bool
  goe : Bool
  /-- Drive histogram bins (R448): key (region * 3 + channel) * 16 + bin. -/
  hist : List (Nat × Nat)
deriving DecidableEq, Repr

/-! ### Panel -/

/-- PL_q.STATUS.STATE. -/
inductive PortState where
  | down | train | up | retrain
deriving DecidableEq, Repr

/-- What a sideband transaction is for (R274 to R278): a firmware command, a POLL of a POLL round, a POLL that confirms RETAINED, or a
broadcast of the block's own. -/
inductive SbUse where
  | cfgWrite (c : Cmd)
  | cfgRead (c : Cmd)
  | poll
  | retain
  | own
deriving DecidableEq, Repr

/-- A sideband transaction that waits or runs (R273, R274): chip (63 broadcast), command code, payload, and what it is for. -/
structure SbTrans where
  chip : Nat
  cmd : Nat
  payload : List Byte
  use : SbUse
deriving DecidableEq, Repr

/-- A chip's answer to a POLL (R275): temperature in 1/256 degree C, whether it is valid, the chip's state, its lane lock mask, and CRC
failures. -/
structure ChipPoll where
  temp : Int
  valid : Bool
  chipState : Nat
  lanes : BitVec 12
  crc : Nat
deriving DecidableEq, Repr

/-- A 66-bit block on a lane (R260): its sync header, and its scrambled payload, bit k the k-th transmitted. -/
structure LaneBlk where
  hdr : BitVec 2
  pay : BitVec 64
deriving DecidableEq, Repr

/-- A lane (R260): the last 58 scrambled bits, the latest on top, and the blocks sent, newest first. A lane that sends nothing is in electrical
idle. -/
structure Lane where
  scr : BitVec 58
  sent : List LaneBlk
deriving DecidableEq, Repr

/-- A block before scrambling (R260, R261): control or data, and its 8 bytes. -/
structure LinkBlk where
  ctl : Bool
  bytes : List Byte
deriving DecidableEq, Repr

/-- A row of blocks that waits for its block slot (R262): the ALIGN row of a line period, or blocks of a line stream, one for each used
lane. -/
inductive LinkRow where
  | align (n : Nat)
  | blocks (l : List LinkBlk)
deriving DecidableEq, Repr

/-- The block stream of a port since its training started (R259 to R262): when that was, none while the lanes are in electrical idle; L, the rate
code, the slots filled, the slots since the last ALIGN row, and the slot of the last line's last PKT_END, none once that line has been
cut off. -/
structure LaneClock where
  since : Option Nat
  l : Nat
  rate : Nat
  slots : Nat
  aligned : Nat
  endSlot : Option Nat
deriving DecidableEq, Repr

structure Port where
  st : PortState
  /-- When the running training attempt started, none while it has not; the attempts that have failed; and when the port came UP. -/
  trainAt : Option Nat
  attempts : Nat
  upAt : Nat
  lock : BitVec 12
  /-- Sequence number of the next packet (R263). -/
  seq : Nat
  clk : LaneClock
  lanes : Vector Lane 12
  /-- Rows of the line period in progress whose slots have not come (R262). -/
  due : List LinkRow
  /-- Sideband transactions in order of arrival, the one in progress first (R274): when that one began, and when the bus is free for the
  next. -/
  sb : List SbTrans
  sbAt : Nat
  sbFree : Nat
  /-- Requests sent on the sideband, newest first, as bytes from SYNC to CRC (R273). -/
  sbSent : List (List Byte)
  /-- When the last POLL round began, and its answers so far. -/
  pollAt : Nat
  round : List (Option ChipPoll)
deriving DecidableEq, Repr

/-- PNL.STATUS.STATE. -/
inductive PanelState where
  | off | upSeq | on | safeSeq
deriving DecidableEq, Repr

/-- Where a falling sequence stands (R283, R507): discharging, lowering a rail, or waiting for its power good. -/
inductive SafeStep where
  | none
  | discharge
  | lower (i : Nat)
  | waitPg (i : Nat)
deriving DecidableEq, Repr

structure Panel where
  st : PanelState
  en : BitVec 4
  pg : BitVec 4
  cause : BitVec 6
  /-- The causes of the panel-safe sequence that runs. -/
  seqCause : BitVec 6
  step : SafeStep
  /-- When the present step started. -/
  stepAt : Nat
  /-- The rail that the up sequence raises next. -/
  upRail : Nat
  /-- Since when each PNL_PG has been low while enabled. -/
  pgLowAt : Vector (Option Nat) 4
  /-- PANEL_ON and PANEL_OFF commands that wait for their sequence, and PL_RETRAIN commands that wait for their ports. -/
  cmds : List Cmd
  trainCmds : List Cmd
  /-- The lowering is that of LATENT, not the panel-safe sequence (R507). -/
  latent : Bool
  /-- Consecutive readings of each crack loop outside its limits (R282). -/
  crackOut : Vector Nat 2
  /-- RELEASE is due at the next PANEL_ON (R508). -/
  releaseDue : Bool
  /-- Strobes are held inactive (R283, R444). -/
  strobesHeld : Bool
  /-- RETAIN in progress (R278): the PANEL_RETAIN command, none for an entry into LATENT (R507), when it was broadcast, and the chips that have
  not confirmed, as 32 * bus + chip; they stand until each has raised E474 where the RETAIN has failed. -/
  retain : Option (Option Cmd × Nat)
  retainDue : List Nat
  /-- COL_BASE and COL_COUNT of the driver chips as written or read (R275), by 64 * bus + 2 * chip, one more for COL_COUNT. -/
  chipCols : List (Nat × Nat)
  /-- When each crack loop was last measured (R282). -/
  crackAt : Vector (Option Nat) 2
  /-- The backlight frame in progress (R284), when it started, and the raster sub-frame in which the last frame started; frames sent,
  newest first. -/
  blFrame : Option (List Byte)
  blStart : Nat
  blK : Option Nat
  blSent : List (List Byte)
deriving DecidableEq, Repr

/-! ### Contact engine -/

/-- A region that a job reads or writes, for the conflicts of R301: the block-aligned hull of its rectangle in a slot, buffer and
plane, counted in blocks, or (with `plate` none) the DRAM bytes x0 to x1 - 1. Ends are exclusive. -/
structure CtRegion where
  plate : Option (Fin 8 × Fin 2 × Nat)
  x0 : Nat
  x1 : Nat
  y0 : Nat
  y1 : Nat
deriving DecidableEq, Repr

/-- A Contact job (R288 to R304): its sequence number, the 48 descriptor bytes, its place in the order of acceptance over both
queues, its regions, and its progress. -/
structure CtJob where
  seq : Nat
  desc : List Byte
  order : Nat
  dst : CtRegion
  /-- The destination is a front buffer (R298). -/
  dstFront : Bool
  src : Option CtRegion
  /-- Strip tokens that the quadrants held at acceptance and have not returned (R166): quadrant, hogel row, strip. -/
  tokens : List (Nat × Nat × Nat)
  started : Bool
  /-- The 512-byte units that the job has left (R289). -/
  left : Nat
  complete : Bool
  /-- One more than the raster tick in force when the job reached the head of its queue, 0 before the first tick (R303). -/
  headAt : Option Nat
  /-- START_LINE has been passed as R303 requires; once the job is complete, its notification is due (R304). -/
  passed : Bool
  /-- Ticks waited for the start line, and for the watermark. -/
  ticks : Nat
  wmTicks : Nat
  fault : Bool
  waitExp : Bool
  wmExp : Bool
  demoted : Bool
deriving DecidableEq, Repr

structure CtQueue where
  nextSeq : Nat
  jobs : List CtJob
deriving DecidableEq, Repr

structure Contact where
  qs : Vector CtQueue 2
  nextOrder : Nat
  /-- The Mask overrides that stand (R166): the region of a job that writes a front buffer, and whether the job is complete, so that
  the next tick ends the override. -/
  overrides : List (Nat × CtRegion × Bool)
  /-- The firmware accepts jobs (R308, R501). -/
  accepting : Bool
deriving DecidableEq, Repr

/-! ### Thermal model -/

/-- The throttle states of R484. -/
inductive ThrState where
  | none | grace | enforced | liftBlocked
deriving DecidableEq, Repr

/-- A chip's latest reading (R276, R469): temperature, when it was taken, and its column range. -/
structure ChipTemp where
  temp : Int
  at_ : Nat
  colBase : Nat
  colCount : Nat
deriving DecidableEq, Repr

structure Thm where
  /-- Node model values, 1/256 degree C. -/
  nodes : Vector Int 24
  /-- Ambient estimates of the base die and the stack. -/
  amb : Vector Int 2
  diodes : Vector Diode 2
  /-- Mean meter power of the last update in mW (R467), and for how many updates each has been unchanged. -/
  meters : List Nat
  same : List Nat
  /-- Consecutive updates of disagreement per diode. -/
  disagree : Vector Nat 2
  /-- The faults of R470: 0 and 1 a diode open, 2 and 3 a diode shorted (base, stack), 4 + n the meter of node n stuck, 28 and 29
  disagreement (base, stack). 0 says no fault, k + 1 a fault whose cause has been absent for k updates. -/
  faults : Vector Nat 30
  warned : BitVec 24
  fast : Bool
  updates : Nat
  updateTick : Nat
  updateAt : Nat
  /-- T_r of each region by 32 * ry + rx, when valid (R469); the last valid values, and regions invalid (R143). -/
  field : List (Nat × Int)
  lastField : List (Nat × Int)
  invalid : List Nat
  /-- Latest readings by 32 * quadrant + chip. -/
  chips : List (Nat × ChipTemp)
  /-- The chips whose last reading was out of range (R276, E300 of R573). -/
  chipsOut : List Nat
  thr : ThrState
  pendingStop : Nat
  reqNode : Nat
  reqValue : Int
  graceEnd : Nat
  /-- The tick at which the stop in force took effect or is scheduled (R484). -/
  stopTick : Nat
  /-- When the stop in force was last checked (R476), and since when every node has been 5 degrees below (R477). -/
  checkAt : Nat
  coolSince : Option Nat
  /-- The cool spell, by its start, whose lift was blocked (R477). -/
  liftTried : Option Nat
  /-- Since when both diodes have been valid and at most 85 degrees (R482). -/
  restartSince : Option Nat
deriving DecidableEq, Repr

/-! ### Calibration -/

/-- PROFILE of CAL.STATUS. -/
inductive Profile where
  | none | valid | invalid
deriving DecidableEq, Repr

/-- A bracket's count and time (R455): SEC, NS, VALID and NETLOCK. -/
structure BracketTime where
  count : Nat
  sec : Nat
  ns : Nat
  valid : Bool
  netlock : Bool
deriving DecidableEq, Repr

structure Cal where
  profile : Profile
  loading : Bool
  g : BracketTime
  l : BracketTime
  lBusy : Bool
  /-- The target set once found, the command that started the bracket, ticks waited for a target, and whether it was
  triggered by FIELD hours (R450, R453). -/
  lTarget : Option Nat
  lCmd : Option Cmd
  lTicks : Nat
  lByHours : Bool
  lSet : Nat
  clipped : Bool
  lMin : Nat
  /-- When the last L bracket ended, and when the FIELD minute in progress started. -/
  lAt : Option Nat
  minuteAt : Nat
  /-- Region temperatures at the last L bracket. -/
  lTemps : List (Nat × Int)
  /-- Wear accumulators (R449), key 3 * n + channel for the n-th region of the tile in raster order, the order of their copies (R524). -/
  wear : List (Nat × Nat)
  /-- The AGING section (R460): 128 bytes. -/
  aging : List Byte
  /-- What a section loaded into the stack (R463): its key, the address and length of each range that it wrote, and the digest of their
  content. -/
  digests : List (Nat × List (Nat × Nat) × List Byte)
  /-- The BRACKET_RUN of class G that waits for the swap (R457). -/
  gCmd : Option Cmd
  /-- When the NVM copy of each class was last written, and whether it is behind (R456). -/
  savedAt : Vector Nat 2
  dirty : BitVec 2
  histAt : Nat
deriving DecidableEq, Repr

/-! ### Running counter values the firmware keeps in SRAM (R523) -/

structure Counters where
  vals : Vector Nat 8
  /-- LAST_MODE as read at start (R508, R525), PPI load count. -/
  lastMode : Nat
  loads : Nat
deriving DecidableEq, Repr

/-! ### The whole state -/

/-- A quadrant's Mask and dispatch beside its Easel: powered engines are derived from the domains. An engine's strips are
those whose `engine` names it. -/
structure Loads where
  /-- YTC_LOAD commands in progress into a Dodge set: quadrant and set (R220). -/
  dodge : List (Nat × Nat)
  /-- The SERVICE_CAPTURE that waits for its line: the command, the ticks left, and one more than the raster tick in force when it
  started, 0 before the first (R512). -/
  capture : Option (Cmd × Nat × Nat)
  /-- PLL_ENG has lost lock since the last tick: clusters take no strips (R534). -/
  engHeld : Bool
deriving DecidableEq, Repr

structure State where
  /-- The queue of commands that wait, first in first out. -/
  pending : List Instr
  /-- Elapsed time in units of 4 ns, one TIME_CLK cycle (R425). -/
  now : Nat
  /-- How many free values have been taken: the argument of Config.freeWord (the model's own field). -/
  fresh : Nat
  regs : RegFile
  evu : Evu
  pools : Vector Pool 45
  time : TimeUnit
  tick : TickGen
  dk : Dk
  trays : Vector Tray 8
  ucie : Vector Ucie 2
  nvm : Nvm
  dmc : Dmc
  pmu : Pmu
  plates : Vector PlateSlot 8
  fixers : Vector Fixer 8
  expo : Expo
  rayMap : RayMapSt
  rfc : Refocus
  corr : CorrSt
  easels : Vector Easel 4
  ports : Vector Port 4
  panel : Panel
  contact : Contact
  thm : Thm
  cal : Cal
  cnt : Counters
  loads : Loads
  caches : Caches
deriving DecidableEq, Repr

/-! ### Reset -/

def RegFile.reset : RegFile := ⟨[], [], [], ⟨0, [], []⟩, [], [], []⟩
def Pool.reset : Pool := ⟨0, 0, 0, 0⟩
def Timebase.reset : Timebase := ⟨0, 0, 0, 0, []⟩
def Ptp.reset : Ptp := ⟨false, false, 0, 0, 0, [], 0, [], [], [], [], 0⟩
def TimeUnit.reset : TimeUnit :=
  { edges := 0, tb := Vector.replicate 4 Timebase.reset, holds := Vector.replicate 6 0, tickView := 0
    outs := Vector.replicate 4 ⟨0, none, false, false⟩, strobes := Vector.replicate 4 ⟨none, none⟩, tickHigh := 0, ptp := Ptp.reset }
def TickGen.reset : TickGen := ⟨none, 0, false, false, none, none, false, [], 0, 0⟩
def Dk.reset : Dk :=
  { running := false, restarting := none, lastBeat := 0, owner := 0, taken := [], started := [], tickWaits := []
    doorbells := [], restarts := 0, notices := Vector.replicate 4 ⟨0, 0, List.replicate 16 0⟩, icsSet := false
    image := [], imageLen := 0, svnRaised := 0 }
def Tray.reset : Tray := ⟨0, 0, 0, 0, [], [], false, [], false⟩
def Ucie.reset : Ucie :=
  { link := .down, rate := 0, configured := false, repaired := false, adv2 := 0, adv3 := 0, cr2 := 0, cr3 := 0
    init := false, freed := Vector.replicate 4 0, tags := [], waiting := [], cpls := [], sent := []
    evSeq := 0 }
def Nvm.reset : Nvm := ⟨[], [], [], [], false, 0, 0, 0, []⟩
def PseudoCh.reset : PseudoCh := ⟨0, [], [], 0, []⟩
def Dmc.reset : Dmc :=
  { state := .train, ref2x := false, sidPd := 0, sidIdle := Vector.replicate 8 0
    pcs := Vector.replicate 64 PseudoCh.reset, serial := 0, debt := [], refT := [], refFrom := (0, false)
    lastPass := Vector.replicate 32 0, deferred := [], pauses := [], ceRaised := 0, scrubPos := 0, scrubAt := 0, mem := [], upset := []
    odeccDue := 0, poison := []
    healed := [] }
def Pmu.reset : Pmu :=
  { mode := .standby, trans := none, rest := false, sleep := .awake, sleepAt := 0, powered := 1, clamped := 0xFFFFFE
    pwrEn := 0, pwrPg := 0, pwrEnAt := Vector.replicate 6 0, pwrPgAt := Vector.replicate 6 0, pwrOffAt := Vector.replicate 6 0, pwrRose := 0, boot := .aonInit, bootErr := 0, attempts := 0
    fuseFail := false, window := false, retryAt := none, banks := Vector.replicate 8 0, sigs := Vector.replicate 8 0, retained := false, alarm := false
    woke := false, wakeLatched := none, wokeAt := none, aonSram := [], safeCut := 0, refreshAt := none, tripped := false, stuckOff := false, latentHeld := false, vaux := true
    xtal := true, lock := 1, tries := Vector.replicate 17 0, lossAt := Vector.replicate 17 0, uaActiveAt := 0
    started := false, tripDetail := none, tripPaged := false, tripSeen := [], tripMore := [], fall := .none, lowering := none
    ubOff := false, borDue := false, failDue := false, retDue := false, cold := true }
def Buf.reset : Buf := ⟨none, 0, 0, 0, false, 0, []⟩
def PlateSlot.reset : PlateSlot := ⟨Vector.replicate 2 Buf.reset, 0, false, .closed, none, 0⟩
def Fixer.reset : Fixer := ⟨0, [], Vector.replicate 7 none⟩
def Expo.reset : Expo :=
  { pend := [], tick := 0, rasterTick := 0, ticked := false, applied := 0, snapSeq := 0, hold := 0, transp := 0
    order := [], latHold := 0, latTransp := 0, latStop := 0, latD2 := false, stageKeep := 0, stop := 0
    d2 := false, sched := none, pattern := ⟨0, 0, 0, 0, 0⟩, ppsSize := 0x00408020#32, patternNext := none }
def RayMapSt.reset : RayMapSt := ⟨false, [], ⟨0, 0, 0, 0, 0, 0, 0⟩, 0, []⟩
def RfGen.reset : RfGen := ⟨0, []⟩
def Refocus.reset : Refocus :=
  { tabA := Vector.replicate 12 RfGen.reset, tabB := Vector.replicate 12 RfGen.reset, active := false, genActive := 0
    gen := 0, ready := false, busy := false, busyAt := 0, readyAt := 0, building := RfGen.reset, buildTemps := [], used := []
    kept := false, history := [RfGen.reset], snapGen := 0 }
def CorrSt.reset : CorrSt := ⟨[], [], Vector.replicate 8 1, List.replicate 7 0, []⟩
def Easel.reset : Easel :=
  { st := .idle, k := 0, steer := 0, frame := 0, arrival := 0, cyc := 0, period := 0, prevArrival := none, rows := []
    nextRow := 0, corrected := 0, sentLines := 0, buf := [], outw := [], urg := .normal, lead := 0, panicked := false
    urgAt := 0, pfsValid := false, pfsWhole := false, pfsNew := [], codecEnds := none, abort := none, band := ⟨0, 0, 0, 0⟩, bandFirst := true, odSteps := 0
    crcs := Vector.replicate 16 0, checked := 0, strips := [], lastEngine := 0, culled := 0
    dormant := Vector.replicate 4 0, gck := 0, gsp := false, goe := true, hist := [] }
def Lane.reset : Lane := ⟨BitVec.allOnes 58, []⟩
def LaneClock.reset : LaneClock := ⟨none, 0, 0, 0, 255, some 0⟩
def Port.reset : Port :=
  { st := .down, trainAt := none, attempts := 0, upAt := 0, lock := 0, seq := 0, clk := LaneClock.reset
    lanes := Vector.replicate 12 Lane.reset, due := [], sb := [], sbAt := 0, sbFree := 0, sbSent := [], pollAt := 0, round := [] }
def Panel.reset : Panel :=
  { st := .off, en := 0, pg := 0, cause := 0, seqCause := 0, step := .none, stepAt := 0, upRail := 0
    pgLowAt := Vector.replicate 4 none, cmds := [], trainCmds := [], latent := false, crackOut := Vector.replicate 2 0
    releaseDue := false, strobesHeld := false, retain := none, retainDue := [], chipCols := []
    crackAt := Vector.replicate 2 none, blFrame := none, blStart := 0, blK := none, blSent := [] }
def Contact.reset : Contact := ⟨Vector.replicate 2 ⟨0, []⟩, 0, [], true⟩
def Thm.reset : Thm :=
  { nodes := Vector.replicate 24 0, amb := Vector.replicate 2 0, diodes := Vector.replicate 2 (.valid 0), meters := []
    same := [], disagree := Vector.replicate 2 0, faults := Vector.replicate 30 0, warned := 0, fast := false, updates := 0, updateTick := 0, updateAt := 0, field := []
    lastField := [], invalid := [], chips := [], chipsOut := [], thr := .none, pendingStop := 0, reqNode := 0, reqValue := 0
    graceEnd := 0, stopTick := 0, checkAt := 0, coolSince := none, liftTried := none, restartSince := none }
def Cal.reset : Cal :=
  { profile := .none, loading := false, g := ⟨0, 0, 0, false, false⟩, l := ⟨0, 0, 0, false, false⟩, lBusy := false
    lTarget := none, lCmd := none, lTicks := 0, lByHours := false, lSet := 0, clipped := false, lMin := 0
    lAt := none, minuteAt := 0, lTemps := [], wear := [], aging := List.replicate 128 0
    digests := [], gCmd := none, savedAt := Vector.replicate 2 0, dirty := 0, histAt := 0 }

def Caches.reset : Caches := ⟨[], Vector.replicate 12 ⟨[], []⟩, Vector.replicate 96 []⟩

/-- The state right after a cold reset (R536): every field at its Reset column, AON powered and every other domain down,
memories at their reset contents, the queue empty. -/
def State.reset : State :=
  { pending := [], now := 0, fresh := 0, regs := RegFile.reset, evu := ⟨[], [], []⟩
    pools := Vector.replicate 45 Pool.reset, time := TimeUnit.reset, tick := TickGen.reset, dk := Dk.reset
    trays := Vector.replicate 8 Tray.reset, ucie := Vector.replicate 2 Ucie.reset, nvm := Nvm.reset, dmc := Dmc.reset
    pmu := Pmu.reset, plates := Vector.replicate 8 PlateSlot.reset, fixers := Vector.replicate 8 Fixer.reset
    expo := Expo.reset, rayMap := RayMapSt.reset, rfc := Refocus.reset, corr := CorrSt.reset
    easels := Vector.replicate 4 Easel.reset, ports := Vector.replicate 4 Port.reset, panel := Panel.reset
    contact := Contact.reset, thm := Thm.reset, cal := Cal.reset, cnt := ⟨Vector.replicate 8 0, 0, 0⟩
    loads := ⟨[], none, false⟩, caches := Caches.reset }

end Sys2Proof.Machine
end

