-- ==== Sys2Proof/Machine/Ops.lean ====
section
/-!
DEFINITION. The named operations over the state that every family uses: registers and counters, power domains, events (chapter
17), credit pools (R336, R337), time views (chapter 18), the records of the NVM (chapter 22), Tray responses and notices
(chapter 15), and bytes of the stacked DRAM (R314).
-/
namespace Sys2Proof.Machine

/-- What every meaning answers. -/
abbrev Out := Host.Outcome State Fault Refusal

/-! ### Registers (R15, R16) -/

/-- A held register. -/
def State.reg (s : State) (id : Nat) : Word := mapGet resetWord s.regs.held id

def State.setReg (s : State) (id : Nat) (v : Word) : State :=
  { s with regs := { s.regs with held := mapSet resetWord s.regs.held id v } }

/-- Field [hi:lo] of a held register. -/
def State.rf (s : State) (id hi lo : Nat) : Nat := fld (s.reg id) hi lo

def State.setRf (s : State) (id hi lo v : Nat) : State := s.setReg id (setFld (s.reg id) hi lo v)

/-- A cumulative 64-bit counter, by the ID of its lower word. -/
def State.ctr (s : State) (id : Nat) : Nat := mapGet (fun _ => 0) s.regs.ctrs id

def State.addCtr (s : State) (id n : Nat) : State :=
  { s with regs := { s.regs with ctrs := mapSet (fun _ => 0) s.regs.ctrs id ((s.ctr id + n) % 2 ^ 64) } }

/-- A live counter of the sub-frame that runs: 48 bits, saturating (R68). -/
def State.live (s : State) (id : Nat) : Nat := mapGet (fun _ => 0) s.regs.live id

/-- Live counters after one count: n is added, or the maximum with n taken. -/
def liveCount (m : List (Nat × Nat)) (id n : Nat) (isMax : Bool) : List (Nat × Nat) :=
  let v := mapGet (fun _ => 0) m id
  mapSet (fun _ => 0) m id (min (if isMax then max v n else v + n) (2 ^ 48 - 1))

/-- One count of a live counter, kept with its clock (R52). -/
def State.countLive (s : State) (id n : Nat) (isMax : Bool) : State :=
  let c := s.regs.clock
  let c := if c.at_ = s.now then c else ⟨s.now, s.regs.live, []⟩
  { s with regs := { s.regs with live := liveCount s.regs.live id n isMax, clock := { c with counts := c.counts ++ [(id, n, isMax)] } } }

def State.addLive (s : State) (id n : Nat) : State := s.countLive id n false
def State.maxLive (s : State) (id n : Nat) : State := s.countLive id n true

/-- The bank of live counters that a tick arriving now copies, and what restarts (R52, R68): what was counted in the tick's own clock
counts in the sub-frame that the tick starts. -/
def State.liveSplit (s : State) : List (Nat × Nat) × List (Nat × Nat) :=
  let c := s.regs.clock
  if c.at_ = s.now then (c.before, c.counts.foldl (fun m e => liveCount m e.1 e.2.1 e.2.2) []) else (s.regs.live, [])

/-- A snapshot value (R68, R338). -/
def State.snapOf (s : State) (id : Nat) : Nat := mapGet (fun _ => 0) s.regs.snap id

def State.setSnap (s : State) (id n : Nat) : State :=
  { s with regs := { s.regs with snap := mapSet (fun _ => 0) s.regs.snap id n } }

/-! ### Free values -/

/-- Take the next free value. -/
def State.free (s : State) : Word × State := (Config.freeWord s.fresh, { s with fresh := s.fresh + 1 })

/-! ### Power domains (R40, R490) -/

abbrev dAon : Nat := 0
abbrev dCtrl : Nat := 1
abbrev dTime : Nat := 2
abbrev dUa : Nat := 3
abbrev dUb : Nat := 4
abbrev dDmc : Nat := 5
abbrev dFab : Nat := 6
abbrev dPl : Nat := 7
abbrev dEasel (q : Nat) : Nat := 8 + q
abbrev dEc (c : Nat) : Nat := 12 + c

/-- A domain is powered and its clamps are open. -/
def State.up (s : State) (d : Nat) : Bool := s.pmu.powered.getLsbD d && !s.pmu.clamped.getLsbD d

/-- A PLL's bit of CLK.LOCK (R535). -/
def State.locked (s : State) (p : Nat) : Bool := s.pmu.lock.getLsbD p

/-- The firmware runs, is not restarting (R389, R553), its core has its clock and does not rest (R493). -/
def State.fw (s : State) : Bool :=
  s.dk.running && s.dk.restarting.isNone && s.up dCtrl && s.locked 1 && (s.pmu.sleep == .awake || s.pmu.sleep == .entering)

/-- The codes of HOST.MODE (R485). -/
def modeCode : Mode → Nat
  | .latent => 1
  | .safelight => 2
  | .standby => 3
  | .flat => 4
  | .field => 5
  | .service => 6

/-- FLAT, FIELD or SERVICE. -/
def activeMode (m : Mode) : Bool := decide (4 ≤ modeCode m)

def State.active (s : State) : Bool := decide (4 ≤ modeCode s.pmu.mode)

/-- The raster of all four quadrants runs (R126): FLAT, FIELD or SERVICE with the panel ON. -/
def State.rasterRuns (s : State) : Bool := s.active && s.panel.st == .on

/-- The tick generator runs (R48). -/
def State.run (s : State) : Bool := bit (s.reg idTickCtrl) 0

/-! ### Credit pools (R336, R337) -/

def State.pool (s : State) (k : Nat) : Pool := if h : k < 45 then s.pools[k] else Pool.reset

def State.setPool (s : State) (k : Nat) (p : Pool) : State :=
  if h : k < 45 then { s with pools := s.pools.set k p } else s

/-- n units of pool k are issued. -/
def State.issue (s : State) (k n : Nat) : State := s.setPool k { s.pool k with issued := ((s.pool k).issued + n) % 2 ^ 64 }

/-- n units of pool k are returned. -/
def State.giveBack (s : State) (k n : Nat) : State := s.setPool k { s.pool k with returned := ((s.pool k).returned + n) % 2 ^ 64 }

/-- The size of a pool (R336), none where it has none: pools 18 to 22 have none, a plate slot's pool counts both buffers. -/
def poolSize (k : Nat) : Option Nat :=
  if k = 0 ∨ k = 4 then some 2048 else if k = 1 ∨ k = 5 then some 256 else if k = 2 ∨ k = 6 then some 0
  else if k = 3 ∨ k = 7 then some 64 else if k < 18 then some 256 else if k < 23 then none
  else if k = 23 then some 4096 else if k = 24 then some 256 else if k < 33 then some (2 * 65535)
  else if k < 37 then some 128 else if k < 41 then some 64 else if k < 43 then some 32
  else if k = 43 then some 16 else some 256

/-- What an unlisted ring byte reads as: the rings read as zero at reset (R383). -/
def ring0 : Nat → Byte := fun _ => 0

/-- A difference of two 16-bit indices. -/
def idxSub (a b : Nat) : Nat := (a + 65536 - b) % 65536

/-! ### Occupancy (R336, R337) -/

/-- Receive slots that a module's transactions hold, and those freed that no CRET has returned yet (R360). -/
def Ucie.slotsHeld (u : Ucie) (vc : Fin 4) : Nat :=
  u.freed[vc] + ((u.waiting.filter fun x => x.2 && istVc x.1 == some vc.val).map fun x => istSlots x.1).sum

/-- The FINAL bit of entry n of a response ring. -/
def Tray.finalAt (y : Tray) (n : Nat) : Bool := (mapGet ring0 y.respRing (32 * (n % 256) + 5)).getLsbD 1

/-- Final responses among h entries from index n. -/
def Tray.finals (y : Tray) (n h : Nat) : Nat := ((List.range h).filter fun i => y.finalAt (n + i)).length

/-- Commands of Tray t whose final response the host has not consumed: not taken yet, taken, answered with the response held, or with the
response in the ring (R378, R381, R384). -/
def State.traySlots (s : State) (t : Fin 8) : Nat :=
  let y := s.trays[t]
  ((s.dk.doorbells.filter fun d => d.2.1 == t.val).map fun d => d.2.2).sum + (s.dk.taken.filter fun c => c.tray == t).length +
    (y.held.filter fun r => r.final).length + y.finals y.respHead (idxSub y.respTail y.respHead)

/-- DRAM tokens of a class of issue that requests hold, over all pseudo-channels (R316, R317). -/
def Dmc.tokensHeld (d : Dmc) (c : DClass) : Nat := (d.pcs.toList.map fun x => (x.queued.filter fun r => r.tok == c).length).sum

/-- Does a block hold its Fixer slot (R202)? -/
def FixBlk.holds (b : FixBlk) : Bool := match b.stage with | .handed _ _ => false | _ => true

/-- Lines of an Easel's line buffer that are allocated: those of the rows taken that have not been sent; after an abort those before it
(R37, R246). -/
def Easel.linesHeld (e : Easel) : Nat :=
  match e.st with
  | .idle => 0
  | .running => 16 * e.nextRow - e.sentLines
  | .aborted => e.corrected - e.sentLines

/-- INFLIGHT of pool k: the population of its occupancy table (R337). -/
def State.occupancy (s : State) (k : Nat) : Nat :=
  if k < 8 then (s.ucie[Fin.ofNat 2 (k / 4)]).slotsHeld (Fin.ofNat 4 k)
  else if k < 10 then (s.ucie[Fin.ofNat 2 (k - 8)]).tags.length
  else if k < 18 then s.traySlots (Fin.ofNat 8 (k - 10))
  else if k = 18 then s.dmc.tokensHeld .rtp
  else if k = 19 then s.dmc.tokensHeld .rtu
  else if k = 20 then s.dmc.tokensHeld .rt
  else if k = 21 then s.dmc.tokensHeld .mg
  else if k = 22 then s.dmc.tokensHeld .be
  else if k = 23 then (s.dmc.pcs.toList.map fun x => x.queued.length).sum
  else if k = 24 then (s.fixers.toList.map fun f => (f.blks.filter FixBlk.holds).length).sum
  else if k < 33 then ((s.plates[Fin.ofNat 8 (k - 25)]).bufs.toList.map fun b => b.credits).sum
  else if k < 37 then (s.easels[Fin.ofNat 4 (k - 33)]).strips.length
  else if k < 41 then (s.easels[Fin.ofNat 4 (k - 37)]).linesHeld
  else if k < 43 then (s.contact.qs[Fin.ofNat 2 (k - 41)]).jobs.length
  else if k = 43 then s.time.ptp.queue.length
  else s.evu.queue.length

/-- Units of a pool that are free. -/
def State.freeUnits (s : State) (k : Nat) : Nat := (poolSize k).getD 0 - s.occupancy k

/-! ### Time (R424 to R428) -/

def State.unified (s : State) : Bool := bit (s.reg idTimeCfg) 0

/-- C in 2^-30 ns: 80 bits above 2^-16 ns (R428). -/
def State.cCount (s : State) : Int := (s.time.edges : Int) * 2 ^ 32 % 2 ^ 94

/-- From a count of C to a later one (R428). -/
def cSince (anchor c : Int) : Int := (c - anchor) % 2 ^ 94

def State.tb (s : State) (b : Nat) : Timebase := if h : b < 4 then s.time.tb[b] else Timebase.reset

def State.setTb (s : State) (b : Nat) (t : Timebase) : State :=
  if h : b < 4 then { s with time := { s.time with tb := s.time.tb.set b t } } else s

/-- The view of timebase b in 2^-30 ns (R427, R428). -/
def State.view (s : State) (b : Nat) : Int :=
  let t := s.tb b
  if s.unified then t.base + cSince t.anchor s.cCount + Int.fdiv (cSince t.anchor s.cCount * t.rate) (2 ^ 32) else t.v

/-- A count in 2^-16 ns (R424). -/
def wOf (v : Int) : Nat := (shr v 14).toNat

/-- SEC, NS and FRAC of a count in 2^-16 ns (R424). -/
def secOf (w : Nat) : Nat := w / 2 ^ 16 / 1000000000 % 2 ^ 48
def nsOf (w : Nat) : Nat := w / 2 ^ 16 % 1000000000
def fracOf (w : Nat) : Nat := w % 2 ^ 16

/-- The timebase that drives the tick generator (R45). -/
def State.tickTb (s : State) : Nat := if s.unified then 0 else s.rf idTickCtrl 3 2

/-- Is timebase b the one that the PTP port uses (R435)? -/
def State.ptpTb (s : State) : Nat := if s.unified then 0 else s.rf idPtpCfg 23 22

/-- NETLOCK of R455. -/
def State.netlock (s : State) : Bool := s.time.ptp.locked && s.ptpTb == s.tickTb

/-- The time field of a record (R522): SEC 6, NS 4, flags 2; VALID while TIME runs. -/
def State.recTime (s : State) : List Byte :=
  let w := wOf (s.view s.tickTb)
  if s.up dTime then leBytes 6 (secOf w) ++ leBytes 4 (nsOf w) ++ leBytes 2 (1 + 2 * b2n s.netlock) else List.replicate 12 0

/-! ### NVM (R513 to R526) -/

/-- What an unlisted byte and an unlisted page read as: BLANK (R517). -/
def nvmByte0 : Nat → Byte := fun _ => 0xFF
def nvmPage0 : Nat → NvmPage := fun _ => ⟨1, 0, 0, 0⟩

def State.nvmPage (s : State) (p : Nat) : List Byte := (List.range 64).map fun i => mapGet nvmByte0 s.nvm.bytes (64 * p + i)

def State.nvmState (s : State) (p : Nat) : NvmPage := mapGet nvmPage0 s.nvm.pages p

/-- VALID, and usable by the records: no group is uncorrectable (R518). -/
def State.nvmOk (s : State) (p : Nat) : Bool := (s.nvmState p).st == 0 && (s.nvmState p).ue == 0

/-- A page as it will read once the writes that wait are done: its bytes, when it will be usable. -/
def State.nvmAhead (s : State) (p : Nat) : Option (List Byte) :=
  match s.nvm.jobs.reverse.find? fun j => j.use.writes && j.page == p with
  | some j => some j.bytes
  | none => if s.nvmOk p then some (s.nvmPage p) else none

/-- An error arises in group g of page p (R518): a single wrong bit is corrected by every read; with a second one, or with more than one at
once, the group is uncorrectable and its bytes as stored are v, which is free. A group whose code is not complete has none to fail. -/
def Nvm.upset (n : Nvm) (e : Nat × Nat × Nat × Bool) : Nvm :=
  let (p, g, v, double) := e
  let st := mapGet nvmPage0 n.pages p
  if 4095 < p ∨ 7 < g ∨ st.st = 1 ∨ (List.range (g + 1)).any st.torn.testBit then n
  else if double || st.ce.testBit g || st.ue.testBit g then
    { n with bytes := ((List.range 8).zip (leBytes 8 v)).foldl (fun m b => mapSet nvmByte0 m (64 * p + 8 * g + b.1) b.2) n.bytes
             pages := mapSet nvmPage0 n.pages p { st with ue := st.ue ||| 2 ^ g } }
  else { n with pages := mapSet nvmPage0 n.pages p { st with ce := st.ce ||| 2 ^ g } }

/-- The page of a ring with the highest SEQ (at offset 0) among those that satisfy `ok`, and its SEQ. -/
def State.ringTop (s : State) (base n : Nat) (ok : List Byte → Bool) : Option (Nat × Nat) :=
  (List.range n).foldl (fun best i =>
    match s.nvmAhead (base + i) with
    | some b =>
      if ok b then
        let q := leAt b 0 4
        match best with
        | some (_, q0) => if q0 < q then some (i, q) else best
        | none => some (i, q)
      else best
    | none => best) none

/-- Is a page protected (R519)? -/
def State.nvmProtected (s : State) (p : Nat) : Bool :=
  match s.rf idProtect 1 0 with
  | 0 => false
  | 1 => decide (3072 ≤ p)
  | 2 => decide (2048 ≤ p)
  | _ => true

/-- A page write arrives at the port (R515): it runs at once or waits. After a trip no write of the firmware starts (R526). -/
def State.nvmSubmit (s : State) (j : NvmJob) : State :=
  if s.pmu.tripped ∧ j.writer = 0 then s
  else
  let s := if s.nvm.jobs = [] then { s with nvm := { s.nvm with since := s.now, lastPage := j.page, lastWriter := j.writer } } else s
  { s with nvm := { s.nvm with jobs := s.nvm.jobs ++ [j] } }

/-- A record write of the firmware: refused by protection, lost and counted (R519). -/
def State.nvmRecord (s : State) (page : Nat) (bytes : List Byte) : State :=
  if s.nvmProtected page then s.addCtr idProtRefused 1 else s.nvmSubmit ⟨page, padTo 64 bytes, 0, .record⟩

/-- The page of counter ring k with the highest SEQ (R522). -/
def State.ctrTop (s : State) (k : Nat) : Option (Nat × Nat) := s.ringTop (16 * k) 16 fun b => leAt b 4 2 == k

/-- A page of counter ring k (R522). -/
def ctrPage (seq k value : Nat) (time detail : List Byte) : List Byte :=
  leBytes 4 seq ++ leBytes 2 k ++ leBytes 2 0 ++ leBytes 8 value ++ padTo 12 time ++ padTo 36 detail

/-- Write counter ring k with a value: the page after the highest, SEQ + 1 (R522). -/
def State.ctrWrite (s : State) (k value : Nat) (time detail : List Byte) : State :=
  let top := (s.ctrTop k).getD (15, 0)
  s.nvmRecord (16 * k + (top.1 + 1) % 16) (ctrPage (top.2 + 1) k value time detail)

/-- The running value of counter k (R523). -/
def State.cntVal (s : State) (k : Nat) : Nat := if h : k < 8 then s.cnt.vals[k] else 0

def State.setCnt (s : State) (k v : Nat) : State :=
  if h : k < 8 then { s with cnt := { s.cnt with vals := s.cnt.vals.set k v } } else s

/-- Add one to counter k and write it (R523). -/
def State.ctrBump (s : State) (k : Nat) (detail : List Byte) : State :=
  let v := s.cntVal k + 1
  (s.setCnt k v).ctrWrite k v s.recTime detail

/-- An event log record of a tick and a time (R526): pages 1,024 to 1,535. -/
def State.logPut (s : State) (kind tick : Nat) (time detail : List Byte) : State :=
  let top := (s.ringTop 1024 512 fun _ => true).getD (511, 0)
  s.nvmRecord (1024 + (top.1 + 1) % 512)
    (leBytes 4 (top.2 + 1) ++ leBytes 4 kind ++ leBytes 8 tick ++ padTo 12 time ++ padTo 36 detail)

/-- An event log record of now (R526). -/
def State.logWrite (s : State) (kind : Nat) (detail : List Byte) : State := s.logPut kind s.expo.tick s.recTime detail

/-! ### Events (R415 to R423) -/

/-- The domain whose clamps gate a source's event line (R35, R490): that of the block that raises it. What the firmware and THM raise comes
from CTRL. -/
def srcDomain (n : Nat) : Nat :=
  if n < 2 then dAon else if n < 64 then dCtrl else if n < 96 then (if n % 2 = 0 then dUa else dUb)
  else if n = 96 then dFab else if n < 128 then dCtrl else if n < 224 then dDmc
  else if n < 256 then dEc ((n - 224) / 4) else if n < 288 then dEc (6 + (n - 256) / 4)
  else if n = 291 ∨ n = 294 ∨ n = 298 ∨ n = 299 ∨ n = 300 ∨ n = 324 then dCtrl
  else if n < 352 then dFab else if n < 416 then dEasel ((n - 352) / 16) else if n < 424 then dEasel (n % 4)
  else if n < 448 then dFab else if n < 456 then dPl else if n = 456 ∨ n = 457 then dAon else if n < 460 then dPl
  else if n = 466 ∨ n = 467 ∨ n = 470 ∨ n = 471 ∨ n < 464 then dPl else if n = 473 ∨ n = 474 then dCtrl else if n < 480 then dAon
  else if n < 512 then dFab else if n < 544 then dTime else if n < 547 then dCtrl else if n = 548 then dCtrl
  else if n < 555 then dAon else dCtrl

def State.setInbox (s : State) (n : Nat) : State := { s with evu := { s.evu with inbox := s.evu.inbox ++ [n] } }

/-- The status bit of a source. -/
def State.evStatus (s : State) (n : Nat) : Bool := bit (s.reg (idEvStatus (n / 32))) (n % 32)

/-- Its enable bit; it reads 1 for a fatal source (R418). -/
def State.evEnabled (s : State) (n : Nat) : Bool := fatalSource n || bit (s.reg (idEvEnable (n / 32))) (n % 32)

/-- Its HOST bit: 1 for a fatal source and 0 for E97. -/
def State.evHost (s : State) (n : Nat) : Bool := n != 97 && (fatalSource n || bit (s.reg (idEvCfg n)) 6)

/-- The status bit, the capture and the count of a pulse (R416). -/
def State.evRecord (s : State) (n : Nat) (lo hi : Word) : State :=
  let g := idEvStatus (n / 32)
  if s.evStatus n then
    s.setReg (idCap n 3) (BitVec.ofNat 32 (min 255 ((s.reg (idCap n 3)).toNat + 1)))
  else
    (((((s.setReg g (s.reg g ||| BitVec.ofNat 32 (2 ^ (n % 32)))).setReg (idCap n 0) lo).setReg (idCap n 1) hi).setReg
      (idCap n 2) (loWord s.expo.tick)).setReg (idCap n 3) 1)

/-- What a rising status bit does beside its message (R422, R423). -/
def State.evRise (s : State) (n : Nat) : State :=
  let s := if fatalSource n && !bit (s.reg idEvFatal) 31 then s.setReg idEvFatal (BitVec.ofNat 32 (2 ^ 31 + n)) else s
  if fatalSource n || bit (s.reg (idEvCfg n)) 7 then s.setInbox n else s

/-- Queue a source's message, or drop it, set its LOST bit and raise E97 (R420, R421, R343). -/
def State.queueMsg (s : State) (n : Nat) : State :=
  let p := s.pool 44
  if s.evu.queue.length < 256 then
    let s := s.setPool 44 { p with issued := (p.issued + 1) % 2 ^ 64, produced := (p.produced + 1) % 2 ^ 64 }
    { s with evu := { s.evu with queue := s.evu.queue ++ [⟨s.rf (idEvCfg n) 5 0, severity n, n⟩] } }
  else
    let s := s.setPool 44 { p with produced := (p.produced + 1) % 2 ^ 64, dropped := (p.dropped + 1) % 2 ^ 64 }
    let l := idEvLost (n / 32)
    let s := s.setReg l (s.reg l ||| BitVec.ofNat 32 (2 ^ (n % 32)))
    let rose := !s.evStatus 97
    let s := s.evRecord 97 0 0
    if rose then s.evRise 97 else s

/-- The firmware takes what the event unit handed to it (R423): a fatal event advances counter 6 and makes a KIND 1 record. -/
def State.drainInbox (s : State) : State :=
  if s.fw then
    let fatal := s.evu.inbox.filter fatalSource
    let s := { s with evu := { s.evu with inbox := [] } }
    fatal.foldl (fun s n => (s.ctrBump 6 (leBytes 4 n)).logWrite 1 (leBytes 4 n)) s
  else s

/-- A pulse that reaches the event unit (R416, R420). -/
def State.evPulse (s : State) (n : Nat) (lo hi : Word) : State :=
  let rose := !s.evStatus n
  let s := s.evRecord n lo hi
  if rose then
    let s := s.evRise n
    if s.evEnabled n && s.evHost n then s.queueMsg n else s
  else s

/-- A block raises event n: a reserved source never sets its bit (R415) and a clamped domain raises nothing (R35). What AON raises while CTRL
is unpowered is kept by the PMU (R419), and without its clock the event unit takes no pulse: it waits in its crossing (R531, R540). -/
def State.raise (s : State) (n : Nat) (lo hi : Word) : State :=
  if (severity? n).isNone || !s.up (srcDomain n) then s
  else if s.up dCtrl && s.locked 1 then (s.evPulse n lo hi).drainInbox
  else if s.up dCtrl || srcDomain n == dAon then { s with evu := { s.evu with kept := s.evu.kept ++ [(n, lo, hi)] } }
  else s

def State.raiseN (s : State) (n lo hi : Nat) : State := s.raise n (BitVec.ofNat 32 lo) (BitVec.ofNat 32 hi)

/-- E4 SETTING_REFUSED (R53, R573). -/
def State.settingRefused (s : State) (id : Nat) (mask : Word) : State := s.raise 4 (BitVec.ofNat 32 id) mask

/-! ### Trays (R376 to R386) -/

def State.tray (s : State) (t : Fin 8) : Tray := s.trays[t]

def State.setTray (s : State) (t : Fin 8) (y : Tray) : State := { s with trays := s.trays.set t y }

/-- Hold a response for its entry (R384). -/
def State.pushResp (s : State) (c : Cmd) (status : Nat) (final : Bool) (reason : Nat) (payload : List Byte) : State :=
  let y := s.tray c.tray
  s.setTray c.tray { y with held := y.held ++ [⟨s.now, c.tag, c.opcode, status, final, reason, padTo 24 payload, c.index⟩] }

/-- The final response of a command (R383): it is no longer taken. -/
def State.answer (s : State) (c : Cmd) (status reason : Nat) (payload : List Byte) : State :=
  let s := s.pushResp c status true reason payload
  { s with dk := { s.dk with taken := s.dk.taken.erase c, started := s.dk.started.erase c } }

def State.done (s : State) (c : Cmd) (payload : List Byte) : State := s.answer c 0 0 payload
def State.refuse (s : State) (c : Cmd) (reason : Nat) : State := s.answer c 2 reason []
def State.fail (s : State) (c : Cmd) (reason : Nat) : State := s.answer c 3 reason []

/-- The class of a command's opcode (R403): 0 FAST, 1 TICK, 2 SLOW. -/
def Cmd.opClass (c : Cmd) : Nat := ((findCmd c.opcode).map CmdRow.cls).getD 0

/-- The commands taken before c. -/
def State.before (s : State) (c : Cmd) : List Cmd := s.dk.taken.takeWhile fun d => d ≠ c

/-- SLOW commands that run (R386). -/
def State.slowRunning (s : State) : List Cmd := s.dk.started.filter fun d => Cmd.opClass d == 2

/-- Has every earlier command of c's Tray its final response (R392)? One whose response is only held for a free entry has not (R384). -/
def State.earlierDone (s : State) (c : Cmd) : Bool :=
  ((s.before c).all fun d => d.tray != c.tray) &&
  (s.tray c.tray).held.all fun r => !r.final || decide (32768 ≤ idxSub c.index r.index)

/-- May command c start now (R386, R391, R392)? It has been taken and not started; with ORDERED no earlier command of its
Tray is without its final response; a SLOW command needs a free core, and no earlier SLOW command still waits to start. -/
def State.mayStart (s : State) (c : Cmd) (op : Nat) : Bool :=
  s.fw && c.opcode == op && s.dk.taken.contains c && !s.dk.started.contains c &&
  (!c.ordered || s.earlierDone c) &&
  (Cmd.opClass c != 2 || (decide (s.slowRunning.length < 2) &&
    (s.before c).all fun d => Cmd.opClass d != 2 || s.dk.started.contains d))

/-- A command whose work ends in a later step has started. -/
def State.startCmd (s : State) (c : Cmd) : State := { s with dk := { s.dk with started := s.dk.started ++ [c] } }

/-- Has command c started and no final response yet? -/
def State.running (s : State) (c : Cmd) (op : Nat) : Bool := s.fw && c.opcode == op && s.dk.started.contains c

/-- Has command c started and still no final response? -/
def State.waits (s : State) (c : Cmd) : Bool := s.dk.started.contains c

/-- Write a notice record (R401, R402). -/
def State.notice (s : State) (kind : Fin 4) (payload : List Byte) : State :=
  let n := s.dk.notices[kind]
  let seq := (n.seq + 2) % 2 ^ 32
  let s := { s with dk := { s.dk with notices := s.dk.notices.set kind ⟨seq, s.expo.tick, padTo 16 payload⟩ } }
  s.raiseN 36 kind.val seq

/-! ### Stacked DRAM as bytes (R314, R326) -/

/-- What an unlisted byte of the stack reads as (log entry 5). -/
def dram0 : Nat → Byte := fun _ => 0

def dramSize : Nat := 2 ^ 35

def State.dramByte (s : State) (a : Nat) : Byte := mapGet dram0 s.dmc.mem a

def State.dramRead (s : State) (a n : Nat) : List Byte := (List.range n).map fun i => s.dramByte (a + i)

def State.setDramByte (s : State) (a : Nat) (b : Byte) : State :=
  { s with dmc := { s.dmc with mem := mapSet dram0 s.dmc.mem a b } }

/-- Every cached copy of the blocks whose slot address satisfies p is invalidated, in all cluster caches and engine caches (R182). -/
def State.uncache (s : State) (p : Nat → Bool) : State :=
  { s with caches := { s.caches with
    clusters := Vector.ofFn fun (c : Fin 12) => { s.caches.clusters[c] with lines := s.caches.clusters[c].lines.filter fun l => !p l.2 }
    texels := Vector.ofFn fun (n : Fin 96) => s.caches.texels[n].filter fun l => !p l.1 } }

/-- Store bytes. -/
def memWrite (m : List Host.Cell) : Nat → List Byte → List Host.Cell
  | _, [] => m
  | a, b :: bs => memWrite (mapSet dram0 m a b) (a + 1) bs

/-- Beats that are wholly written are no longer poisoned, and no error of their cells is left (R330). -/
def State.wholeBeats (s : State) (whole : Nat → Bool) : State :=
  { s with dmc := { s.dmc with poison := s.dmc.poison.filter fun e => !whole e.1, upset := s.dmc.upset.filter fun e => !whole e.1 } }

def State.dramWrite (s : State) (a : Nat) (bs : List Byte) : State :=
  ({ s with dmc := { s.dmc with mem := memWrite s.dmc.mem a bs } }).wholeBeats fun k => decide (a ≤ 8 * k ∧ 8 * k + 8 ≤ a + bs.length)

/-- Does beat b touch n bytes at a? -/
def beatIn (a n b : Nat) : Bool := decide (a < 8 * b + 8 ∧ 8 * b < a + n)

/-- Does a byte range read without an uncorrectable error: no beat of it is poisoned, and none is wrong in more than one bit (R330)? -/
def State.clean (s : State) (a n : Nat) : Bool :=
  (s.dmc.poison.all fun e => !beatIn a n e.1) && s.dmc.upset.all fun e => !(e.2 && beatIn a n e.1)

/-- The host area (R314). -/
def hostBase : Nat := 0x740000000
def hostSize : Nat := 0xA0000000

/-- Does a range lie wholly in the host area, 64-byte aligned? -/
def hostRange (a n : Nat) : Bool := a % 64 == 0 && decide (hostBase ≤ a ∧ a + n ≤ hostBase + hostSize)

/-- Is RESULT acceptable for n bytes of results (R385)? 0 asks for none. -/
def resultOk (a n : Nat) : Bool := a == 0 || hostRange a n

end Sys2Proof.Machine
end

