-- ==== Sys2Proof/Machine/Flags.lean ====
section
/-!
DEFINITION. The status registers: every register whose value is formed from other state (its image), and the read of any register
(R16, R20, R409, R410).
-/
namespace Sys2Proof.Machine

/-- A word from its fields (hi, lo, value). -/
def mkWord (fs : List (Nat × Nat × Nat)) : Word := fs.foldl (fun w f => setFld w f.1 f.2.1 f.2.2) 0

def bootCode : BootState → Nat
  | .aonInit => 0
  | .supplies => 1
  | .waitFw => 2
  | .verify => 3
  | .dramTrain => 4
  | .fwRunning => 5
  | .failed => 15

/-- HOST.MODE and MODE_GET (R414, R489): the target of a running transition, else the mode itself. -/
def State.targetMode (s : State) : Mode := match s.pmu.trans with | some t => t.target | none => s.pmu.mode

/-- BUSY: a mode transition or boot is in progress (R414). -/
def State.modeBusy (s : State) : Bool := s.pmu.trans.isSome || s.pmu.boot != .fwRunning || !s.pmu.started

def linkCode : LinkState → Nat
  | .down => 0
  | .train => 1
  | .up => 2
  | .lowPower => 3

def dmcCode : DmcState → Nat
  | .train => 0
  | .run => 1
  | .selfRefresh => 2
  | .failed => 3

def backCode : BackState → Nat
  | .closed => 0
  | .opening => 1
  | .opened => 2
  | .sealed => 3
  | .ready => 4

def rasterCode : RasterState → Nat
  | .idle => 0
  | .running => 1
  | .aborted => 2

def portCode : PortState → Nat
  | .down => 0
  | .train => 1
  | .up => 2
  | .retrain => 3

def panelCode : PanelState → Nat
  | .off => 0
  | .upSeq => 1
  | .on => 2
  | .safeSeq => 3

def thrCode : ThrState → Nat
  | .none => 0
  | .grace => 1
  | .enforced => 2
  | .liftBlocked => 3

def profileCode : Profile → Nat
  | .none => 0
  | .valid => 1
  | .invalid => 2

/-- The fused rollback counter with the bits blown since reset (R550, R555). -/
def State.svnMin (s : State) : Nat := max (bitsOf Config.rollback.toNat 64).length s.dk.svnRaised

/-- PLATE_p.STATUS (chapter 3). -/
def State.plateStatus (s : State) (p : Fin 8) : Word :=
  let sl := s.plates[p]
  let fb := sl.bufs[sl.front]
  let bb := sl.bufs[(1 - sl.front : Fin 2)]
  mkWord [(23, 8, bb.credits), (5, 3, backCode sl.back), (2, 2, b2n sl.inForce),
    (1, 0, match fb.geom with | some g => if sl.inForce then g.typ else 0 | none => 0)]

/-- EVU.PENDING_g (R418). -/
def State.evPending (s : State) (g : Nat) : Word :=
  s.reg (idEvStatus g) &&& (s.reg (idEvEnable g) ||| BitVec.ofNat 32 (maskOf ((List.range 32).filter fun i => fatalSource (32 * g + i))))

/-- The nodes that a diode anchors (R466): 0 the base diode, 1 the stack diode. -/
def anchored (d : Nat) : List Nat := if d = 0 then List.range 20 else [20, 21, 22, 23]

/-- The nodes that item k of Thm.faults covers, and its cause code (R470). -/
def faultNodes (k : Nat) : List Nat := if k < 4 then anchored (k % 2) else if k < 28 then [k - 4] else anchored (k - 28)
def faultCause (k : Nat) : Nat := if k < 2 then 1 else if k < 4 then 2 else if k < 28 then 3 else 4

/-- Is a node faulted? -/
def State.nodeFault (s : State) (n : Nat) : Bool := (List.range 30).any fun k => s.thm.faults.toList.getD k 0 != 0 && (faultNodes k).contains n

/-- The thresholds of R471 in 1/256 degree C. -/
def warnAt (n : Nat) : Int := if n < 20 then 95 * 256 else 85 * 256
def throttleAt (n : Nat) : Int := if n < 20 then 100 * 256 else 90 * 256
def tripAt (n : Nat) : Int := if n < 20 then 110 * 256 else 100 * 256

/-- A node's value with the substitution of R470. -/
def State.nodeTemp (s : State) (n : Nat) : Int := if s.nodeFault n then tripAt n else s.thm.nodes.toList.getD n 0

def diodeWord (d : Diode) : Word :=
  match d with
  | .valid t => mkWord [(15, 0, unsigned 16 t)]
  | .opened => mkWord [(16, 16, 1)]
  | .shorted => mkWord [(16, 16, 1)]

def diodeBad (d : Diode) : Bool := match d with | .valid _ => false | _ => true

/-- The overdrive status of a quadrant (R228, R233). -/
def State.odStatus (s : State) (q : Fin 4) : Word :=
  let e := s.easels[q]
  mkWord [(14, 13, e.odSteps), (12, 12, b2n e.pfsValid), (11, 10, e.band.oldLeft),
    (9, 7, e.band.dwell), (6, 4, e.band.prev), (2, 0, e.band.band)]

/-! Contact jobs (R289, R301) -/

/-- Do two regions intersect? -/
def CtRegion.meets (a b : CtRegion) : Bool :=
  a.plate == b.plate && decide (a.x0 < b.x1 ∧ b.x0 < a.x1 ∧ a.y0 < b.y1 ∧ b.y0 < a.y1)

/-- The job at the head: the first that is not complete (R289, R302). -/
def State.ctHead (s : State) (x : Fin 2) : Option CtJob := s.contact.qs[x].jobs.find? fun j => !j.complete

/-- Does a job that is not complete, accepted before j, conflict with it (R301)? -/
def State.ctConflicts (s : State) (j : CtJob) : Bool :=
  s.contact.qs.toList.any fun q => q.jobs.any fun k =>
    !k.complete && decide (k.order < j.order) &&
      (k.dst.meets j.dst || (match j.src with | some r => k.dst.meets r | none => false)
        || (match k.src with | some r => r.meets j.dst | none => false))

/-- CT_x.STATUS.STATE. -/
def State.ctState (s : State) (x : Fin 2) : Nat :=
  match s.ctHead x with
  | none => 0
  | some j => if j.started then 3 else if (leAt j.desc 0 1).testBit 4 && !j.passed then 1 else if s.ctConflicts j then 2 else 3

/-- Byte n of the picture parameter set (R250): the fields of its table at their places in the VESA DSC 1.2a PPS (log entry 9),
every other byte as DSC derives it. DSC.PPS_k changes only at a tick (R19, R251), so the size is the one latched there. -/
def State.ppsByte (s : State) (n : Nat) : Byte :=
  let qw := fld s.expo.ppsSize 5 0
  let qh := fld s.expo.ppsSize 15 6
  let bpp := if s.rf idDscCtrl 1 0 = 0 then 128 else if s.rf idDscCtrl 1 0 = 1 then 160 else 192
  let be (v : Nat) (hi : Bool) : Byte := BitVec.ofNat 8 (if hi then v / 256 else v)
  match n with
  | 0 => 0x12
  | 3 => 0xAB
  | 4 => 0x30
  | 5 => be bpp false
  | 6 => be (16 * qh) true
  | 7 => be (16 * qh) false
  | 8 => be (512 * qw) true
  | 9 => be (512 * qw) false
  | 10 => 0
  | 11 => 16
  | 12 => 2
  | 13 => 0
  | 14 => be (bpp * 4) true
  | 15 => be (bpp * 4) false
  | 88 => 0
  | _ => Config.dscDerived qw qh bpp n

/-- The image of a register whose value is formed from other state. `i` and `j` are its instance numbers. -/
def State.image (s : State) (base i j : Nat) (upper : Bool) : Word :=
  let half (n : Nat) : Word := if upper then hiWord n else loWord n
  let q4 : Fin 4 := Fin.ofNat 4 i
  let q8 : Fin 8 := Fin.ofNat 8 i
  let q2 : Fin 2 := Fin.ofNat 2 i
  match base with
  | 0x0000 => 0x4E599720#32
  | 0x0001 => mkWord [(23, 16, Config.stepping.toNat), (15, 8, if s.dk.icsSet then Config.icsMajor.toNat else 0),
      (7, 0, if s.dk.icsSet then Config.icsMinor.toNat else 0)]
  | 0x0002 => mkWord [(23, 16, s.pmu.bootErr), (15, 8, s.pmu.attempts), (3, 0, bootCode s.pmu.boot)]
  | 0x0003 => mkWord [(10, 8, modeCode s.targetMode), (7, 7, b2n s.modeBusy), (2, 0, modeCode s.pmu.mode)]
  | 0x000C => half s.expo.tick
  | 0x000E => loWord s.expo.snapSeq
  | 0x0400 => let y := s.trays[q8]; mkWord [(31, 16, y.respTail), (15, 0, y.cmdHead)]
  | 0x0401 => let y := s.trays[q8]; mkWord [(31, 16, y.respHead), (15, 0, y.cmdTail)]
  | 0x0402 => mkWord [(19, 18, (s.slowRunning.filter fun c => c.tray == q8).length), (17, 17, b2n (s.dk.owner == q8)),
      (16, 16, b2n s.trays[q8].dbErr), (8, 0, s.occupancy (10 + q8.val))]
  | 0x0800 => let u := s.ucie[q2]; mkWord [(31, 30, linkCode u.link), (29, 28, u.rate), (27, 27, b2n u.configured), (26, 26, b2n u.repaired)]
  | 0x0801 => let u := s.ucie[q2]; mkWord [(31, 16, u.adv3), (15, 0, u.adv2)]
  | 0x1002 => mkWord [(31, 30, dmcCode s.dmc.state), (29, 29, b2n s.dmc.ref2x), (7, 0, s.dmc.sidPd.toNat)]
  | 0x1800 => mkWord [(23, 16, s.expo.latHold.toNat), (15, 8, s.expo.latTransp.toNat), (7, 6, s.expo.latStop), (5, 4, s.rf idSteer 1 0),
      (3, 3, b2n s.expo.latD2), (2, 0, s.expo.pend.length)]
  | 0x1801 => half s.expo.tick
  | 0x1803 => half s.expo.applied
  | 0x1805 => loWord s.expo.snapSeq
  | 0x1C09 => half s.tick.base
  | 0x200C => s.plateStatus q8
  | 0x2401 => mkWord [(31, 16, s.rfc.genActive), (4, 4, b2n (s.thm.invalid != [])), (3, 3, b2n s.rfc.ready), (2, 2, b2n s.rfc.busy),
      (1, 1, b2n s.rfc.active)]
  | 0x2402 => BitVec.ofNat 32 s.rfc.snapGen
  | 0x2801 => BitVec.ofNat 32 (s.easels[q4].dormant.toList.getD s.easels[q4].steer 0).toNat
  | 0x2820 => mkWord [(17, 16, urgCode s.easels[q4].urg), (15, 8, s.occupancy (33 + i)),
      (4, 0, (bitsOf (s.pmu.powered.toNat / 2 ^ (12 + 3 * i)) 3).length * 8)]
  | 0x3001 => BitVec.ofNat 32 (s.fixers[q8].blks.filter FixBlk.holds).length
  | 0x3811 => mkWord [(31, 16, unsigned 16 (s.corr.bounds.getD (2 * i + 1) 0)), (15, 0, unsigned 16 (s.corr.bounds.getD (2 * i) 0))]
  | 0x3C00 => s.odStatus q4
  | 0x4400 =>
    let e := s.easels[q4]
    let lt := 16 * s.rf idRasterSize 15 6 + s.rf idRasterSize 26 16
    mkWord [(31, 30, rasterCode e.st), (29, 16, if e.st = .running then e.period else if s.up (dEasel q4.val) then lt else 0), (7, 0, e.lead)]
  | 0x4C01 => let p := s.ports[q4]; mkWord [(31, 30, portCode p.st), (11, 0, p.lock.toNat)]
  | 0x500A => mkWord [(21, 16, s.panel.cause.toNat), (9, 8, panelCode s.panel.st), (7, 4, s.panel.pg.toNat), (3, 0, s.panel.en.toNat)]
  | 0x5C01 => BitVec.ofNat 32 (hostBase / 256 % 2 ^ 27)
  | 0x5C02 => BitVec.ofNat 32 ((hostBase + hostSize) / 256 % 2 ^ 27)
  | 0x5C08 => mkWord [(9, 8, s.ctState q2), (5, 0, s.occupancy (41 + i))]
  | 0x6000 => BitVec.ofNat 32 (unsigned 32 (s.tb i).rate)
  | 0x6402 => mkWord [(31, 31, b2n s.time.ptp.link), (30, 30, b2n s.time.ptp.locked), (29, 27, s.time.ptp.port)]
  | 0x6403 => half (unsigned 64 s.time.ptp.offset)
  | 0x6801 => mkWord [(31, 30, thrCode s.thm.thr), (29, 28, s.expo.stop), (27, 26, s.thm.pendingStop), (25, 25, b2n s.thm.fast)]
  | 0x6802 => mkWord [(25, 25, b2n (diodeBad (s.thm.diodes[1]))), (24, 24, b2n (diodeBad (s.thm.diodes[0]))),
      (23, 0, maskOf ((List.range 24).filter fun n => s.nodeFault n))]
  | 0x6803 => diodeWord s.thm.diodes[0]
  | 0x6804 => diodeWord s.thm.diodes[1]
  | 0x6810 => mkWord [(16, 16, b2n (s.nodeFault i)), (15, 0, unsigned 16 (s.nodeTemp i))]
  | 0x6C0C => mkWord [(9, 8, Config.revoked.toNat), (6, 0, s.svnMin)]
  | 0x6C11 => s.pmu.lock.setWidth 32
  | 0x7001 => mkWord [(31, 31, b2n (s.nvm.jobs != [])), (30, 30, s.nvm.lastWriter), (11, 0, s.nvm.lastPage)]
  | 0x7402 => s.evPending i
  | 0x7448 => BitVec.ofNat 32 (maskOf ((List.range 18).filter fun g => s.evPending g != 0))
  | 0x7801 => mkWord [(31, 30, profileCode s.cal.profile), (29, 29, b2n s.cal.loading), (28, 28, b2n s.cal.lBusy), (27, 27, s.cal.lSet),
      (26, 26, b2n s.cal.clipped), (11, 0, s.cal.lMin)]
  | 0x7802 => BitVec.ofNat 32 s.cal.g.count
  | 0x7803 => loWord s.cal.g.sec
  | 0x7804 => mkWord [(31, 31, b2n s.cal.g.valid), (30, 30, b2n s.cal.g.netlock), (15, 0, s.cal.g.sec / 2 ^ 32)]
  | 0x7805 => BitVec.ofNat 32 s.cal.g.ns
  | 0x7806 => BitVec.ofNat 32 s.cal.l.count
  | 0x7807 => loWord s.cal.l.sec
  | 0x7808 => mkWord [(31, 31, b2n s.cal.l.valid), (30, 30, b2n s.cal.l.netlock), (15, 0, s.cal.l.sec / 2 ^ 32)]
  | 0x7809 => BitVec.ofNat 32 s.cal.l.ns
  | 0x4020 => BitVec.ofNat 32 (leNat ((List.range 4).map fun k => s.ppsByte (4 * i + k)))
  | _ => BitVec.ofNat 32 j

/-- A word without its WO fields, which read 0 (R16). -/
def Found.mask (f : Found) (w : Word) : Word := w &&& ~~~ f.d.accMask fun a => a = .wo

/-- The value in force of a register's word; `pair` says that lower and upper word are read together (R410), otherwise the
upper word of a 64-bit value is its hold register (R20). Without a read of the lower word before it, or a second time, that shows what the
hold register holds, 0 after reset (log entry 134). -/
def State.readWord (s : State) (f : Found) (pair : Bool) : Word :=
  let full : Option Nat :=
    match f.d.kind with
    | .count => some (s.ctr f.lowId)
    | .live => some (s.snapOf f.lowId)
    | .snap64 => some (s.snapOf f.lowId)
    | .image64 =>
      some ((s.image f.d.base (f.inst.headD 0) (f.inst.getD 1 0) false).toNat +
        2 ^ 32 * (s.image f.d.base (f.inst.headD 0) (f.inst.getD 1 0) true).toNat)
    | .held => none
    | .image => none
  match full with
  | some n =>
    if !f.upper then loWord n
    else if pair then hiWord n
    else mapGet (fun _ => 0) s.regs.hold f.lowId
  | none =>
    match f.d.kind with
    | .image => s.image f.d.base (f.inst.headD 0) (f.inst.getD 1 0) false
    | _ => f.mask (s.reg (if f.upper then f.lowId + 1 else f.lowId))

/-- Reading the lower word of a 64-bit value captures its upper word (R20). -/
def State.capture (s : State) (f : Found) : State :=
  if f.d.wide && !f.upper then
    let up := s.readWord { f with upper := true } true
    { s with regs := { s.regs with hold := mapSet (fun _ => 0) s.regs.hold f.lowId up } }
  else s

end Sys2Proof.Machine
end

