-- ==== Sys2Proof/Machine/Supplies.lean ====
section
/-!
DEFINITION. The main supplies (R546, R547): raising the rails in ascending order, lowering them in descending order, and the start-up
from the main-supply step (R545, R548).
-/
namespace Sys2Proof.Machine

def State.setPmu (s : State) (p : Pmu) : State := { s with pmu := p }

def railBit (i : Nat) : BitVec 6 := BitVec.ofNat 6 (2 ^ i)

/-- Rails 0 to 4 are enabled and good. -/
def State.suppliesGood (s : State) : Bool := (List.range 5).all fun i => s.pmu.pwrEn.getLsbD i && s.pmu.pwrPg.getLsbD i

/-- Set or clear a PLL's bit of CLK.LOCK. -/
def State.setLock (s : State) (p : Nat) (on : Bool) : State :=
  let b := BitVec.ofNat 17 (2 ^ p)
  s.setPmu { s.pmu with lock := if on then s.pmu.lock ||| b else s.pmu.lock &&& ~~~ b }

/-- A link trains again: when every attempt to relock its PLL had failed, three new ones begin (R535). -/
def State.pllRetry (s : State) (p : Fin 17) : State :=
  if s.locked p.val ∨ s.pmu.tries[p] < 3 then s
  else s.setPmu { s.pmu with tries := s.pmu.tries.set p 0, lossAt := s.pmu.lossAt.set p s.now }

/-- PLL_CTRL, PLL_TIME and PLL_DMC lock (R545 step 5), when XTAL is present. -/
def State.startPlls (s : State) : State := if s.pmu.xtal then ((s.setLock 1 true).setLock 2 true).setLock 5 true else s

/-- PWR_EN[i] is raised. -/
def State.enableRail (s : State) (i : Nat) : State :=
  if h : i < 6 then
    s.setPmu { s.pmu with pwrEn := s.pmu.pwrEn ||| railBit i, pwrEnAt := s.pmu.pwrEnAt.set i s.now
                          pwrRose := (s.pmu.pwrRose &&& ~~~ railBit i) ||| (s.pmu.pwrPg &&& railBit i) }
  else s

/-- PWR_EN[i] is dropped. -/
def State.dropRail (s : State) (i : Nat) : State :=
  if h : i < 6 then s.setPmu { s.pmu with pwrEn := s.pmu.pwrEn &&& ~~~ railBit i, pwrOffAt := s.pmu.pwrOffAt.set i s.now } else s

/-- Step 4 has failed three times: every main rail stays off until VAUX is cycled (R547). -/
def State.railsGivenUp (s : State) : Bool := decide (3 ≤ s.rf idPmuBoot 1 0)

/-- The supplies come up: no rail is being lowered, no trip waits for its restart, and step 4 runs. -/
def State.raising (s : State) : Bool :=
  s.pmu.boot == .supplies && s.pmu.lowering.isNone && s.pmu.fall == .none && s.pmu.retryAt.isNone && !s.pmu.tripped && !s.railsGivenUp

/-- The next of rails 0 to 4 is enabled, 100 us after the power good of the one before it (R546); with the last one good the PLLs lock. -/
def State.supplyNext (s : State) : State :=
  if !s.raising then s
  else
    match (List.finRange 6).find? fun i => !s.pmu.pwrEn.getLsbD i.val with
    | none => s
    | some i =>
      let p : Fin 6 := i - 1
      let due := max s.pmu.pwrPgAt[p] s.pmu.pwrEnAt[p] + 25000
      if i = 0 ∨ (i.val < 5 ∧ s.pmu.pwrPg.getLsbD p.val ∧ due ≤ s.now) then
        let s := s.enableRail i.val
        if s.suppliesGood then s.startPlls else s
      else s

/-- Start-up from the main-supply step (R548). -/
def State.mainStart (s : State) : State :=
  let s := s.setPmu { s.pmu with boot := .supplies, fall := .none, lowering := none, retryAt := none, tripped := false }
  if s.railsGivenUp then s else if s.suppliesGood then s.startPlls else s.supplyNext

/-- The rails are down. After a supply failure step 4 starts again 100 ms later, at most 3 times in all; in a trip that is VDDA again, for
the diodes of R482 (R547, log entry 69). -/
def State.railsDown (s : State) : State :=
  let s := s.setPmu { s.pmu with lowering := none }
  if s.pmu.fall = .supply then
    s.setPmu { s.pmu with fall := .none, boot := .supplies, retryAt := if s.railsGivenUp then none else some (s.now + 25000000) }
  else s

/-- Lower the highest rail that is enabled, once the power good of the one above it has fallen or 10 ms after that was dropped, and those
below it whose turn comes at once (R546). -/
def State.lowerRails : Nat → State → State
  | 0, s => s
  | n + 1, s =>
    match (List.finRange 6).reverse.find? fun i => s.pmu.pwrEn.getLsbD i.val with
    | none => s.railsDown
    | some i =>
      let up : Fin 6 := i + 1
      let t := s.pmu.pwrOffAt[up]
      if i ≠ 5 ∧ s.pmu.pwrPg.getLsbD up.val ∧ s.now < t + 2500000 then s.setPmu { s.pmu with lowering := some (up.val, t) }
      else
        let s := s.dropRail i.val
        State.lowerRails n (s.setPmu { s.pmu with lowering := some (i.val, s.now) })

/-- 10 ms after a rail was lowered the next one follows without its power good having fallen (R546). -/
def State.railTimeout (s : State) : State :=
  match s.pmu.lowering with
  | none => s
  | some (_, t) => if t + 2500000 ≤ s.now then State.lowerRails 7 s else s

/-- PWR_PG_RISE (R545, R546). -/
def execPwrPgRise (i : Fin 6) (s : State) : Out :=
  .next (
    if s.pmu.pwrPg.getLsbD i.val then s
    else
      let good := s.suppliesGood
      let s := s.setPmu { s.pmu with pwrPg := s.pmu.pwrPg ||| railBit i.val, pwrRose := s.pmu.pwrRose ||| railBit i.val
                                     pwrPgAt := s.pmu.pwrPgAt.set i s.now }
      if s.raising && !good && s.suppliesGood then s.startPlls else s)

/-- PWR_PG_FALL (R546); without VDDA the diodes are not read (R480, R482). -/
def execPwrPgFall (i : Fin 6) (s : State) : Out :=
  .next (
    let s := s.setPmu { s.pmu with pwrPg := s.pmu.pwrPg &&& ~~~ railBit i.val, pwrEnAt := s.pmu.pwrEnAt.set i s.now }
    let s := if i = 0 then { s with thm := { s.thm with restartSince := none } } else s
    match s.pmu.lowering with
    | some (k, _) => if k = i.val then State.lowerRails 7 s else s
    | none => s)

/-- SUPPLY_RETRY (R547): 100 ms after the rails went down. -/
def execSupplyRetry (s : State) : Out :=
  .next (
    match s.pmu.retryAt with
    | none => s
    | some t =>
      if t ≤ s.now ∧ s.pmu.vaux then
        (if s.pmu.tripped then (s.setPmu { s.pmu with retryAt := none }).enableRail 0 else s.mainStart)
      else s)

end Sys2Proof.Machine
end

