-- ==== Sys2Proof/Machine/Dram.lean ====
section
/-!
DEFINITION. The DRAM controller (chapter 12): address decode, tokens, arbitration, aging, refresh, retraining, power-down,
self-refresh, errors and scrub, and the commands DRAM_MAP and DRAM_SCRUB.
-/
namespace Sys2Proof

/-! ### Requests -/

/-- The quadrant of a real-time requester (R33). -/
def DClient.quad (w : DClient) : Option (Fin 4) :=
  match w with
  | .easel q | .fetch q => some q
  | .fixer | .host | .contact | .bracket | .firmware | .shadow | .logging => none

/-- A write names bytes (R311). -/
def DramReq.isWrite (r : DramReq) : Bool := r.mask != 0

/-- Beat k of a request is read: in a read every beat, in a write those that it writes in part, for the merge (R311). -/
def DramReq.reads (r : DramReq) (k : Nat) : Bool :=
  let lo := 8 * (r.addr / 8 + k)
  let written := (List.range 8).filter fun j => decide (r.addr ≤ lo + j) && r.mask.testBit (lo + j - r.addr)
  !r.isWrite || (written != [] && written.length != 8)

/-- The bytes that a request writes, none where its mask is clear. -/
def DramReq.bytes (r : DramReq) : List (Option Byte) :=
  (List.range r.len).map fun k => if r.mask.testBit k then some (Machine.byteAt r.data k) else none

/-- The counted bytes of a request (R332, R334): the raw size for the slot of a YTC block, else the bytes requested. -/
def DramReq.counted (r : DramReq) : Nat := if r.block = some r.addr then 512 else r.len

/-- No error arises. -/
def EccErr.clean : EccErr := ⟨[], []⟩

end Sys2Proof

namespace Sys2Proof.Machine

/-! ### Address decode (R310, R312) -/

def dramPc (a : Nat) : Nat := (a / 2 ^ 9 % 64) ^^^ (a / 2 ^ 23 % 64)
def dramBank (a : Nat) : Nat := (a / 2 ^ 16 % 16) ^^^ (a / 2 ^ 29 % 16)
def dramSid (a : Nat) : Nat := a / 2 ^ 20 % 8
def dramRow (a : Nat) : Nat := a / 2 ^ 23 % 4096
/-- The 64-bit beat within the 1 KiB row. -/
def dramBeat (a : Nat) : Nat := a / 2 ^ 15 % 2 * 64 + a / 8 % 64
/-- The key of a bank within its pseudo-channel. -/
def bankKey (a : Nat) : Nat := 16 * dramSid a + dramBank a

/-! ### Classes (R315, R316) -/

/-- The rank of a class, 0 highest, and the number of its token pool after 18. -/
def classIx (c : DClass) : Nat :=
  match c with
  | .rtp => 0
  | .rtu => 1
  | .rt => 2
  | .mg => 3
  | .be => 4

def classReserved (c : DClass) : Nat :=
  match c with
  | .rtp => 8
  | .rtu => 8
  | .rt => 16
  | .mg => 4
  | .be => 8

def classGuard (c : DClass) : Nat :=
  match c with
  | .rtp => 0
  | .rtu => 2
  | .rt => 4
  | .mg => 8
  | .be => 12

def sharedTokens : Nat := 20

/-- The class of a quadrant's real-time requests under its urgency state (R34). -/
def urgClass (u : Urgency) : DClass :=
  match u with
  | .normal => .rt
  | .urgent => .rtu
  | .panic => .rtp

def isRt (c : DClass) : Bool := classIx c < 3

/-- The class of a requester by the table of R33; a real-time one is in its quadrant's class of the moment. Fixer writes and host-area
accesses are BE: the budget may favour the raster at their cost, but they only wait, with aging (R320), and nothing limits the host's rate,
FX.CTRL.INGEST_RATE being read by admission alone (R75). -/
def State.classOf (s : State) (w : DClient) : DClass :=
  match w with
  | .easel q | .fetch q => urgClass s.easels[q].urg
  | .fixer | .host | .contact | .bracket => .be
  | .firmware | .shadow | .logging => .mg

/-! ### Tokens (R316) -/

def State.pc (s : State) (p : Fin 64) : PseudoCh := s.dmc.pcs[p]
def State.setPc (s : State) (p : Fin 64) (x : PseudoCh) : State := { s with dmc := { s.dmc with pcs := s.dmc.pcs.set p x } }

/-- The controller accepts and serves requests: it runs and has its clock (R326, R328, R534). -/
def State.dmcRuns (s : State) : Bool := s.up dDmc && s.locked 5 && s.dmc.state == .run

/-- Which token a request of class c would take: its class's own (false), a shared one (true), or none. -/
def PseudoCh.tokenFor (x : PseudoCh) (c : DClass) : Option Bool :=
  let own := (x.queued.filter fun r => r.tok == c && !r.shared).length
  let used := (x.queued.filter fun r => r.shared).length
  if own < classReserved c then some false
  else if classGuard c < sharedTokens - used then some true
  else none

/-- A store of a Fixer: its token is taken together with the one of its block's other store (R344, log entry 118). -/
def DReq.paired (r : DReq) : Bool := r.owner.isSome && r.req.isWrite

/-- The oldest request of class c that waits for a token: the one whose turn it is (R316). -/
def PseudoCh.turn (x : PseudoCh) (c : DClass) : Option DReq := x.waiting.find? fun r => r.cls == c

/-- Give request r of pseudo-channel p a token of its class, if there is one for it: it enters the scheduler. -/
def State.grantOne (s : State) (p : Fin 64) (r : DReq) : Option State :=
  let x := s.pc p
  (x.tokenFor r.cls).map fun sh =>
    let s := s.setPc p { x with waiting := x.waiting.erase r
                                queued := x.queued ++ [{ r with tok := r.cls, shared := sh, seq := s.dmc.serial }] }
    (({ s with dmc := { s.dmc with serial := s.dmc.serial + 1 } }).issue (18 + classIx r.cls) 1).issue 23 1

/-- Grant tokens to the waiting requests of class c, in arrival order. A Fixer's store, and what waits behind it, is not granted
here. -/
def State.grantClass (p : Fin 64) (c : DClass) : Nat → State → State
  | 0, s => s
  | n + 1, s =>
    match (s.pc p).turn c with
    | none => s
    | some r =>
      if r.paired then s
      else
        match s.grantOne p r with
        | none => s
        | some s => State.grantClass p c n s

def dClasses : List DClass := [.rtp, .rtu, .rt, .mg, .be]

/-- Grant tokens on a pseudo-channel, the highest class first. -/
def State.grantTokens (s : State) (p : Fin 64) : State :=
  if s.dmcRuns then dClasses.foldl (fun s c => State.grantClass p c (s.pc p).waiting.length s) s else s

def State.grantAll (s : State) : State := (List.finRange 64).foldl (fun s (p : Fin 64) => s.grantTokens p) s

/-- The pseudo-channel of a byte address. -/
def pcOf (a : Nat) : Fin 64 := Fin.ofNat 64 (dramPc a)

/-- Mark the time since which a SID has been idle. -/
def State.touchSid (s : State) (sid : Nat) : State :=
  if h : sid < 8 then { s with dmc := { s.dmc with sidIdle := s.dmc.sidIdle.set sid s.now } } else s

/-- A request or a refresh wakes its SID (R327). -/
def State.wakeSid (s : State) (sid : Nat) : State :=
  { s with dmc := { s.dmc with sidPd := s.dmc.sidPd &&& ~~~ BitVec.ofNat 8 (2 ^ sid) } }

/-- A requester asks for a token (R316): the request waits in arrival order and, a Fixer's or the host's among them, as long as it takes
(R75); its SID leaves power-down (R327). -/
def State.ask (s : State) (r : DramReq) (owner : Option Nat) (unit : Option StoreUnit) : State :=
  let p := pcOf r.addr
  let x := s.pc p
  let c := s.classOf r.who
  let d : DReq := { num := x.next, seq := 0, req := r, cls := c, tok := c, shared := false, asked := s.now, aged := false
                    issued := false, passed := 0, late := false, owner := owner, unit := unit }
  let s := s.setPc p { x with next := x.next + 1, waiting := x.waiting ++ [d] }
  s.wakeSid (dramSid r.addr)

/-- DRAM_REQUEST (R33, R34, R316, R327): a requester asks for a token. -/
def execDramRequest (pc : Fin 64) (r : DramReq) (s : State) : Out :=
  .next (if s.dmcRuns && pcOf r.addr == pc then (s.ask r none none).grantTokens pc else s)

/-! ### Arbitration (R318 to R320) -/

/-- The rank at which a request is served: an aged request holding a token has the rank of RT-P. -/
def DReq.rank (r : DReq) : Nat := if r.aged then 0 else classIx r.cls

/-- Does a request hit the open row of its bank? -/
def PseudoCh.hit (x : PseudoCh) (r : DReq) : Bool := mapFind x.rows (bankKey r.req.addr) == some (dramRow r.req.addr)

/-- The oldest of some requests, by the order in which their tokens were asked for. -/
def oldestReq (l : List DReq) : Option DReq :=
  l.foldl (fun best r => match best with | none => some r | some b => some (if r.num < b.num then r else b)) none

/-- May r go ahead of every older request of its rank (R318)? None of them has been passed 16 times. -/
def mayPass (peers : List DReq) (r : DReq) : Bool := peers.all fun e => decide (r.num ≤ e.num ∨ e.passed < 16)

/-- Of the requests of one rank (`peers`), the one to issue among those that bank timing allows (`ready`): the oldest row hit that may
pass the older ones, else the oldest. -/
def PseudoCh.pick (x : PseudoCh) (peers ready : List DReq) : Option DReq :=
  let ok := ready.filter (mayPass peers)
  (oldestReq (ok.filter fun r => x.hit r)).or (oldestReq ok)

/-- Is a request held: an earlier request of the same block, of the other direction (R207) or of another store (R199), has not retired? -/
def State.heldBack (s : State) (r : DReq) : Bool :=
  match r.req.block with
  | none => false
  | some b => s.dmc.pcs.toList.any fun x => x.queued.any fun e =>
      e.req.block == some b && decide (e.seq < r.seq) &&
        (e.req.isWrite != r.req.isWrite || (r.req.isWrite && (r.owner.isNone || e.owner != r.owner)))

/-- Is a read of a block whose slot lies in a range in progress? A store of it then waits (R207). -/
def State.readsIn (s : State) (lo hi : Nat) : Bool :=
  s.dmc.pcs.toList.any fun x => x.queued.any fun r =>
    !r.req.isWrite && (match r.req.block with | some b => decide (lo ≤ b ∧ b < hi) | none => false)

/-- Is a pseudo-channel in a retraining pause (R324)? -/
def State.paused (s : State) (p : Fin 64) : Bool :=
  s.dmc.pauses.any fun e => e.1 == p.val && decide (e.2.1 ≤ s.now ∧ s.now < e.2.2)

/-- The request to issue next among those that hold a token (`all`), R207 holding none of them: allowed by the bank timing, of the
highest rank. While an RT-P request waits, nothing of lower rank goes ahead of it (R319); one aged request may after every 8 RT-P
grants (R320). -/
def PseudoCh.choose (x : PseudoCh) (all : List DReq) (blocked : List Nat) : Option DReq :=
  let ready := all.filter fun r => !blocked.contains r.num
  let aged (r : DReq) : Bool := r.aged
  let rtp (r : DReq) : Bool := !r.aged && r.cls == .rtp
  if all.any rtp then
    let a := if 8 ≤ x.rtpGrants then x.pick (all.filter aged) (ready.filter aged) else none
    a.or (x.pick (all.filter rtp) (ready.filter rtp))
  else
    (List.range 5).findSome? fun k => x.pick (all.filter fun r => r.rank == k) (ready.filter fun r => r.rank == k)

/-- The requests of a pseudo-channel that hold a token, are not issued and are not held; none in a pause (R324). -/
def State.issuable (s : State) (p : Fin 64) : List DReq :=
  if s.paused p then [] else (s.pc p).queued.filter fun r => !r.issued && !s.heldBack r

/-- DRAM_ISSUE (R318 to R320): the controller issues one request. How long an RT-P request took to the front of its scheduler is a free
value of at most 32 ns (R319, R334; log entry 78). -/
def execDramIssue (pc : Fin 64) (blocked : List Nat) (s : State) : Out :=
  .next (
    let x := s.pc pc
    match x.choose (s.issuable pc) blocked with
    | none => s
    | some r =>
      if s.dmcRuns then
        let queued := x.queued.map fun e =>
          if e.num = r.num then { e with issued := true }
          else if x.hit r && !e.issued && e.rank == r.rank && decide (e.num < r.num) then { e with passed := e.passed + 1 }
          else e
        let grants := if r.aged then 0 else if r.cls = .rtp then x.rtpGrants + 1 else x.rtpGrants
        let s := s.setPc pc { x with queued := queued, rtpGrants := grants, rows := mapPut x.rows (bankKey r.req.addr) (dramRow r.req.addr) }
        let wait := 4 * (s.now - r.asked)
        match r.cls with
        | .be => s.maxLive idWaitMaxBe wait
        | .mg => s.maxLive idWaitMaxMg wait
        | .rtp => { s with fresh := s.fresh + 1 }.maxLive idPanicLat (Config.freeBelow s.fresh 33)
        | _ => s
      else s)

/-! ### Errors (R329, R330) -/

/-- The image of DC_d.ERR_INFO for an error at a byte address. -/
def errInfo (a : Nat) (ue scrub : Bool) : Nat :=
  b2n ue * 2 ^ 31 + b2n scrub * 2 ^ 30 + dramPc a % 2 * 2 ^ 29 + dramSid a * 2 ^ 26 + dramBank a * 2 ^ 22 + dramRow a * 2 ^ 10 +
    dramBeat a * 8

/-- Log an error at a beat's address. -/
def State.logErr (s : State) (a : Nat) (ue scrub : Bool) : State :=
  let d := dramPc a / 2
  ((s.setReg (idErrInfo d) (BitVec.ofNat 32 (errInfo a ue scrub))).setReg (idErrAddrLo d) (loWord a)).setReg (idErrAddrHi d) (hiWord a)

/-- A single-bit error (R329). -/
def State.dcCe (s : State) (a : Nat) (scrub : Bool) : State :=
  let d := dramPc a / 2
  let s := (s.logErr a false scrub).addCtr (idDcCe d) 1
  if s.dmc.ceRaised.getLsbD d then s
  else
    let s := { s with dmc := { s.dmc with ceRaised := s.dmc.ceRaised ||| BitVec.ofNat 32 (2 ^ d) } }
    s.raiseN (128 + 2 * d) (errInfo a false scrub) (a / 8)

/-- An uncorrectable error (R330): the beat is poisoned. -/
def State.dcUe (s : State) (a : Nat) (scrub : Bool) : State :=
  let d := dramPc a / 2
  let s := { s with dmc := { s.dmc with poison := mapPut s.dmc.poison (a / 8) ()
                                        healed := if (mapFind s.dmc.poison (a / 8)).isSome then s.dmc.healed
                                          else s.dmc.healed.filter fun e => e.1 / 64 != a / 64 } }
  ((s.logErr a true scrub).addCtr (idDcUe d) 1).raiseN (129 + 2 * d) (errInfo a true scrub) (a / 8)

/-- Is a beat poisoned? -/
def State.poisoned (s : State) (b : Nat) : Bool := (mapFind s.dmc.poison b).isSome

/-- An error arises in the cells of a beat; two make it uncorrectable. -/
def State.setUpset (s : State) (b : Nat) (multi : Bool) : State :=
  { s with dmc := { s.dmc with upset := mapPut s.dmc.upset b (multi || (mapFind s.dmc.upset b).isSome) } }

/-- A read of beat b finds its error (R329, R330): the beat is poisoned, or an error has arisen in its cells. A corrected beat is written
back. -/
def State.beatErr (s : State) (b : Nat) (scrub : Bool) : State :=
  let t : State := { s with dmc := { s.dmc with upset := mapDel s.dmc.upset b } }
  if s.poisoned b then t.dcUe (8 * b) scrub
  else
    match mapFind s.dmc.upset b with
    | some true => t.dcUe (8 * b) scrub
    | some false => t.dcCe (8 * b) scrub
    | none => s

/-- The beats of n bytes at a that a read finds wrong, rising. -/
def State.badBeats (s : State) (a n : Nat) : List (Nat × Unit) :=
  (s.dmc.upset.foldl (fun l e => mapPut l e.1 ()) s.dmc.poison).filter fun e => beatIn a n e.1

/-- A read of n bytes at a finds the errors of its beats in address order, in those beats that `counts` names. -/
def State.readErr (s : State) (a n : Nat) (scrub : Bool) (counts : Nat → Bool) : State :=
  (s.badBeats a n).foldl (fun s e => if counts (e.1 - a / 8) then s.beatErr e.1 scrub else s) s

/-- The errors that arise in n bytes at a by the time that they are read, by their beats from the first. -/
def State.arise (s : State) (a n : Nat) (err : EccErr) : State :=
  let put := fun (multi : Bool) (s : State) (k : Nat) => if beatIn a n (a / 8 + k) then s.setUpset (a / 8 + k) multi else s
  err.single.foldl (put false) (err.multi.foldl (put true) s)

/-- Write some of the bytes from an address on: where there is none, the byte stays. -/
def memPut (m : List Host.Cell) : Nat → List (Option Byte) → List Host.Cell
  | _, [] => m
  | a, none :: bs => memPut m (a + 1) bs
  | a, some b :: bs => memPut (mapSet dram0 m a b) (a + 1) bs

/-- A request's bytes stand in their beats: a beat written in part keeps its other bytes (R311), a beat written whole is no longer poisoned
(R330), and no cache holds what it replaces (R182). -/
def State.putReq (s : State) (r : DramReq) : State :=
  let s := if r.isWrite then s.uncache fun b => decide (r.addr < b + 512 ∧ b < r.addr + r.len) else s
  ({ s with dmc := { s.dmc with mem := memPut s.dmc.mem r.addr r.bytes } }).wholeBeats fun b =>
    r.isWrite && (List.range 8).all fun j => decide (r.addr ≤ 8 * b + j) && r.mask.testBit (8 * b + j - r.addr)

/-- Has a Fixer's block a store that has not retired? -/
def State.storesLeft (s : State) (tag : Nat) : Bool :=
  s.dmc.pcs.toList.any fun x => (x.queued ++ x.waiting).any fun r => r.paired && r.owner == some tag

/-- Has a Fixer's block a request of any kind that has not retired? -/
def State.reqsLeft (s : State) (tag : Nat) : Bool :=
  s.dmc.pcs.toList.any fun x => (x.queued ++ x.waiting).any fun r => r.owner == some tag

/-- Store a block: its slot bytes and its entry (R187). The entry is a part of a beat, so a poisoned beat stays poisoned (R330), but the
fault ends for this block (R106, log entry 120). -/
def State.storeBlk (s : State) (addr ent : Nat) (stored : List Byte) (entry : Nat) : State :=
  let s := ((s.uncache (· == addr)).dramWrite addr stored).dramWrite ent (leBytes 2 entry)
  if s.clean (ent / 64 * 64) 64 then s else { s with dmc := { s.dmc with healed := mapPut s.dmc.healed ent () } }

/-- Both stores of a unit have retired: it stands in the banks, and the reads of the tile-flag update are asked for (R202, R207). -/
def State.unitStored (s : State) (tag : Nat) (u : StoreUnit) : State :=
  u.reads.foldl (fun s r => s.ask r (some tag) none) (s.storeBlk u.addr u.ent u.stored u.entry)

/-- Request r of a pseudo-channel retires (R316, R317, R329, R330, R334): its token returns under the class of issue, what its beats
show is counted and logged, and a write's bytes are in the bank. -/
def State.retire (s : State) (pc : Fin 64) (r : DReq) (err : EccErr) : State :=
  let x := s.pc pc
  let s := s.setPc pc { x with queued := x.queued.erase r }
  let s := (((s.giveBack (18 + classIx r.tok) 1).giveBack 23 1).addLive (idDmcBytes (classIx r.tok)) r.req.counted).touchSid
    (dramSid r.req.addr)
  let s := (s.arise r.req.addr r.req.len err).readErr r.req.addr r.req.len false r.req.reads
  match r.owner, r.unit with
  | some tag, some u => if s.storesLeft tag then s else s.unitStored tag u
  | _, _ => s.putReq r.req

/-- DRAM_RETIRE: an issued request retires, and its token goes to the next that waits. -/
def execDramRetire (pc : Fin 64) (n : Nat) (err : EccErr) (s : State) : Out :=
  .next (
    match (s.pc pc).queued.find? fun r => r.num == n with
    | none => s
    | some r =>
      if s.dmcRuns && r.issued then
        let t := s.retire pc r err
        if r.unit = none then t.grantTokens pc else t.grantAll
      else s)

/-! ### Times of a class (R320) -/

/-- The time after which a request of a class is aged, in units of 4 ns. -/
def State.ageTime (s : State) (c : DClass) : Option Nat :=
  match c with
  | .be => some (250 * s.rf idDmcCtrl 21 16)
  | .mg => some 250
  | _ => none

/-- The bound of a class's wait. -/
def ageLimit (c : DClass) : Option Nat :=
  match c with
  | .be => some 16000
  | .mg => some 1000
  | _ => none

/-! ### Accesses of one row's own data move (R33, log entry 133) -/

/-- The requests that n bytes at a take: one for each half of a row (R311). -/
def halfRows (a n : Nat) : Nat := if n = 0 then 0 else (a + n - 1) / 512 - a / 512 + 1

/-- The pseudo-channels of n bytes at a, each once; 128 half rows in a row touch them all (R312, R313). -/
def pcsOf (a n : Nat) : List (Fin 64) :=
  if 128 ≤ halfRows a n then List.finRange 64 else ((List.range (halfRows a n)).map fun k => pcOf (a + 512 * k)).eraseDups

/-- The SIDs of n bytes at a: bits [22:20] of the address (R312). -/
def sidsOf (a n : Nat) : List Nat :=
  if n = 0 then [] else (List.range (min 8 ((a + n - 1) / 2 ^ 20 - a / 2 ^ 20 + 1))).map fun k => (a / 2 ^ 20 + k) % 8

/-- May requester w's move of n bytes at a have its tokens now: the controller takes requests, and on every pseudo-channel that it meets
there is a token for its class, none of whose requests waits before it, and no pause (R316, R324, R343)? -/
def State.room (s : State) (w : DClient) (a n : Nat) : Bool :=
  n == 0 || (s.dmcRuns && (pcsOf a n).all fun p =>
    ((s.pc p).turn (s.classOf w)).isNone && ((s.pc p).tokenFor (s.classOf w)).isSome && !s.paused p)

/-- The longest wait that R320 lets a request of class c have, in ns, and the one after which it is aged; the real-time classes have
none. -/
def State.waitBounds (s : State) (c : DClass) : Option (Nat × Nat × Nat) :=
  match c, s.ageTime c with
  | .be, some t => some (idWaitMaxBe, 64000, 4 * t)
  | .mg, some t => some (idWaitMaxMg, 4000, 4 * t)
  | _, _ => none

/-- The waits of the u requests of a move: the longest, and how many of them were aged, are free within the bounds of R320 (R334, log entry
133). -/
def State.moveWaits (s : State) (c : DClass) (u : Nat) : State :=
  match s.waitBounds c with
  | none => s
  | some (id, bound, age) =>
    let w := Config.freeBelow s.fresh (bound + 1)
    let n := if age ≤ w then 1 + Config.freeBelow (s.fresh + 1) u else 0
    ({ s with fresh := s.fresh + 2 }.maxLive id w).addLive idDmcAged n

/-- The accesses of one row's own data move: n bytes at a for requester w, each half row with its token, retired within the row; `counted`
bytes of them count (R33, R316, R327, R332, R334; log entry 133). -/
def State.charge (s : State) (w : DClient) (a n counted : Nat) : State :=
  let c := s.classOf w
  let u := halfRows a n
  if n = 0 then s
  else
    let s := (((s.issue (18 + classIx c) u).issue 23 u).giveBack (18 + classIx c) u).giveBack 23 u
    let s := (sidsOf a n).foldl (fun s k => (s.wakeSid k).touchSid k) s
    (s.moveWaits c u).addLive (idDmcBytes (classIx c)) counted

/-- Requester w reads n bytes at a within a row: what their beats show is counted and logged (R329, R330). -/
def State.access (s : State) (w : DClient) (a n : Nat) : State := (s.charge w a n n).readErr a n false fun _ => true

/-- Requester w writes some of the bytes from a on within a row: a beat written in part is merged (R311), a beat written whole is no
longer poisoned (R330). -/
def State.storeSome (s : State) (w : DClient) (a : Nat) (bs : List (Option Byte)) : State :=
  let r : DramReq := ⟨w, a, bs.length, maskOf ((List.range bs.length).filter fun k => (bs.getD k none).isSome), none, bs.map (·.getD 0)⟩
  let s := (s.charge w a bs.length bs.length).readErr a bs.length false fun k => r.reads k && r.isWrite
  s.putReq r

/-- Requester w writes bytes at a within a row. -/
def State.store (s : State) (w : DClient) (a : Nat) (bs : List Byte) : State := s.storeSome w a (bs.map some)

/-- Write results (R385), class MG: the firmware writes them. -/
def State.putResult (s : State) (a : Nat) (bs : List Byte) : State := if a = 0 then s else s.store .firmware a bs

/-- May results of n bytes be written now? -/
def State.resultRoom (s : State) (a n : Nat) : Bool := a == 0 || s.room .firmware a n

/-! ### Aging (R320) -/

/-- Change request n of a pseudo-channel. -/
def PseudoCh.update (x : PseudoCh) (n : Nat) (f : DReq → DReq) : PseudoCh :=
  { x with queued := x.queued.map fun r => if r.num = n then f r else r, waiting := x.waiting.map fun r => if r.num = n then f r else r }

def PseudoCh.find (x : PseudoCh) (n : Nat) : Option DReq := (x.queued ++ x.waiting).find? fun r => r.num == n

/-- REQUEST_AGED (R320). -/
def execRequestAged (pc : Fin 64) (n : Nat) (s : State) : Out :=
  .next (
    let x := s.pc pc
    match x.find n with
    | none => s
    | some r =>
      match s.ageTime r.cls with
      | none => s
      | some t =>
        if s.dmcRuns && !r.issued && !r.aged && decide (r.asked + t ≤ s.now) then
          (s.setPc pc (x.update n fun r => { r with aged := true })).addLive idDmcAged 1
        else s)

/-- AGE_BOUND (R320): a wait exceeds its bound; the capture holds the pseudo-channel and the class (log entry 21). -/
def execAgeBound (pc : Fin 64) (n : Nat) (s : State) : Out :=
  .next (
    let x := s.pc pc
    match x.find n with
    | none => s
    | some r =>
      match ageLimit r.cls with
      | none => s
      | some t =>
        if s.up dDmc && !r.issued && !r.late && decide (r.asked + t < s.now) then
          (s.setPc pc (x.update n fun r => { r with late := true })).raiseN 196 pc.val (classIx r.cls)
        else s)

/-- The urgency state of quadrant q changes: its requests that are not issued take the new class (R317), and those that wait may now
find a token of it (R316). -/
def State.reclass (s : State) (q : Fin 4) (c : DClass) : State :=
  let f := fun (r : DReq) => if !r.issued && r.req.who.quad == some q then { r with cls := c } else r
  let t := { s with dmc := { s.dmc with pcs := Vector.ofFn fun (p : Fin 64) =>
    { s.dmc.pcs[p] with queued := s.dmc.pcs[p].queued.map f, waiting := s.dmc.pcs[p].waiting.map f } } }
  if s.dmc.pcs.toList.all fun x => x.waiting == [] then t else t.grantAll

/-! ### Refresh (R322, R323) -/

def debtKey (pc : Fin 64) (sid : Fin 8) (bank : Fin 16) : Nat := 128 * pc.val + 16 * sid.val + bank.val
def State.debt (s : State) (k : Nat) : Int := mapGet (fun _ => 0) s.dmc.debt k
def State.setDebt (s : State) (k : Nat) (v : Int) : State :=
  { s with dmc := { s.dmc with debt := mapSet (fun _ => 0) s.dmc.debt k v } }

/-- A bank's refresh interval in progress: when it began, and whether the short interval applies. -/
def State.refInt (s : State) (k : Nat) : Nat × Bool := mapGet (fun _ => s.dmc.refFrom) s.dmc.refT k
def State.setRefInt (s : State) (k : Nat) (v : Nat × Bool) : State :=
  { s with dmc := { s.dmc with refT := mapSet (fun _ => s.dmc.refFrom) s.dmc.refT k v } }

/-- tREFI in quarters of a nanosecond: 7.8125 us, or 3.90625 us when short (R322). -/
def tRefi (short : Bool) : Nat := if short then 15625 else 31250

/-- The controller begins to refresh: every bank's interval begins now (log entry 117). -/
def State.refreshFrom (s : State) : State :=
  { s with dmc := { s.dmc with refT := [], refFrom := (16 * s.now, s.dmc.ref2x) } }

/-- Mark the time since which a SID has been idle when a bank's open row closes. -/
def State.closeRow (s : State) (pc : Fin 64) (key : Nat) : State :=
  let x := s.pc pc
  if (mapFind x.rows key).isSome then (s.setPc pc { x with rows := mapDel x.rows key }).touchSid (key / 16) else s

/-- Refresh a bank n times: its row closes, its SID wakes, its debt falls, and from here the present interval applies (R322, R323). -/
def State.refreshBank (s : State) (pc : Fin 64) (sid : Fin 8) (bank : Fin 16) (n : Nat) : State :=
  let k := debtKey pc sid bank
  (((s.closeRow pc (16 * sid.val + bank.val)).wakeSid sid.val).setDebt k (s.debt k - n)).setRefInt k ((s.refInt k).1, s.dmc.ref2x)

/-- The forced refreshes of a bank that owes 8 or more: until it owes fewer (R323). -/
def State.forceRefresh (s : State) (pc : Fin 64) (sid : Fin 8) (bank : Fin 16) : State :=
  let d := s.debt (debtKey pc sid bank)
  let n := (d - 7).toNat
  if s.locked 5 && decide (8 ≤ d) then (s.refreshBank pc sid bank n).addLive idRefForced n else s

/-- REFRESH_INTERVAL (R322, R323): tREFI has passed for a bank; at a debt of 8 the refresh is forced. Without its clock the controller
refreshes nothing and the debt grows (R534). -/
def execRefreshInterval (pc : Fin 64) (sid : Fin 8) (bank : Fin 16) (s : State) : Out :=
  .next (
    let k := debtKey pc sid bank
    let e := s.refInt k
    let due := e.1 + tRefi e.2
    if s.up dDmc && s.dmc.state == .run && decide (due ≤ 16 * s.now) then
      ((s.setDebt k (s.debt k + 1)).setRefInt k (due, e.2)).forceRefresh pc sid bank
    else s)

/-- BANK_REFRESH (R323): a bank with no request queued is refreshed, up to 8 intervals ahead; a bank that owes 8 is refreshed by force
whatever is queued. -/
def execBankRefresh (pc : Fin 64) (sid : Fin 8) (bank : Fin 16) (s : State) : Out :=
  .next (
    let k := debtKey pc sid bank
    let busy := (s.pc pc).queued.any fun r => bankKey r.req.addr == 16 * sid.val + bank.val
    if !s.dmcRuns then s
    else if busy then s.forceRefresh pc sid bank
    else if -8 < s.debt k then s.refreshBank pc sid bank 1
    else s)

/-! ### Retraining (R324, R325) -/

/-- Is quadrant q in the active line periods of its raster sub-frame, be it aborted: neither in vertical blanking nor in the tail (R236,
R325)? -/
def State.scanning (s : State) (q : Fin 4) : Bool :=
  let e := s.easels[q]
  let vb := s.rf idRasterSize 26 16
  s.up (dEasel q.val) && e.st != .idle && decide (vb ≤ e.period ∧
    (if e.st = .running then e.sentLines < 16 * s.rf idRasterSize 15 6 else e.period < vb + 16 * s.rf idRasterSize 15 6))

/-- An RT-P request is queued on a pseudo-channel. -/
def PseudoCh.rtpQueued (x : PseudoCh) : Bool := x.queued.any fun r => !r.issued && r.cls == .rtp

/-- A pass pauses two pseudo-channels for 120 ns each (R324), in units of 4 ns. -/
def passTime : Nat := 60

/-- Channels other than d that are in a pass (R324). -/
def State.passing (s : State) (d : Fin 32) : Nat :=
  ((List.finRange 32).filter fun (e : Fin 32) => e != d &&
    (decide (0 < s.dmc.lastPass[e] ∧ s.now < s.dmc.lastPass[e] + passTime) || s.dmc.deferred.any fun r => r.1 / 2 == e.val)).length

/-- A pass ends: with a margin below the training limit the previous settings stay (R325). -/
def State.passEnd (s : State) (d : Fin 32) (low : Bool) : State :=
  if low then (s.addCtr (idTrainFail d.val) 1).raiseN 193 0 0 else s

/-- n pauses run, under step 2 or not (R325, R334). -/
def State.pauses (s : State) (n : Nat) (step2 : Bool) : State :=
  let s := s.addLive idRetrainPauses n
  if step2 then s.addLive idRetrainActive n else s

/-- The pauses of some pseudo-channels begin, one after the other, each of its maximum of 120 ns (R324, log entry 141). -/
def State.pauseNow (s : State) (ps : List Nat) : State :=
  let new := (List.range ps.length).map fun k => (ps.getD k 0, s.now + 30 * k, s.now + 30 * (k + 1))
  { s with dmc := { s.dmc with pauses := (s.dmc.pauses.filter fun e => decide (s.now < e.2.2)) ++ new } }

/-- A pass of channel d starts: the pauses of the pseudo-channels `late` are deferred, until the time `by_` at most. -/
def State.passStart (s : State) (d : Fin 32) (late : List Nat) (by_ : Nat) (step2 low : Bool) : State :=
  let s := { s with dmc := { s.dmc with lastPass := s.dmc.lastPass.set d s.now
                                        deferred := s.dmc.deferred ++ late.map fun p => (p, by_, low) } }
  let s := (s.pauseNow ([2 * d.val, 2 * d.val + 1].filter fun p => !late.contains p)).pauses (2 - late.length) step2
  if late = [] then s.passEnd d low else s

/-- RETRAIN_PASS (R324, R325): channel d starts a pass, or runs the pause that its pass has deferred. Under step 2 a pause is deferred by at
most 32 us in all: to 999 us after the start of the pass before. -/
def execRetrainPass (d : Fin 32) (lowMargin : Bool) (s : State) : Out :=
  .next (
    let last := s.dmc.lastPass[d]
    let rtp (p : Nat) : Bool := (s.pc (Fin.ofNat 64 p)).rtpQueued
    if !s.dmcRuns || decide (2 ≤ s.passing d) then s
    else
      match s.dmc.deferred.find? fun e => e.1 / 2 == d.val with
      | some (p, by_, low) =>
        if rtp p && decide (s.now < by_) then s
        else
          let t := (({ s with dmc := { s.dmc with deferred := s.dmc.deferred.erase (p, by_, low) } }).pauseNow [p]).pauses 1 true
          if t.dmc.deferred.any fun e => e.1 / 2 == d.val then t else t.passEnd d (low || lowMargin)
      | none =>
        if (List.finRange 4).all fun (q : Fin 4) => !s.scanning q then
          if last + 125000 < s.now then s.passStart d [] 0 false lowMargin else s
        else if s.now < last + 241750 then s
        else
          let late := if s.now < last + 249750 then [2 * d.val, 2 * d.val + 1].filter rtp else []
          if late.length = 2 then s else s.passStart d late (last + 249750) true lowMargin)

/-! ### Power-down and self-refresh (R327, R328) -/

/-- SID_POWER_DOWN (R327). -/
def execSidPowerDown (sid : Fin 8) (s : State) : Out :=
  .next (
    let idle := s.rf idDmcCtrl 15 8
    let pcs := s.dmc.pcs.toList
    let used := pcs.any fun x => (x.queued ++ x.waiting).any (fun r => dramSid r.req.addr == sid.val) ||
      x.rows.any fun e => e.1 / 16 == sid.val
    let rtp := pcs.any PseudoCh.rtpQueued
    if s.dmcRuns && decide (idle ≠ 0) && !used && !rtp && decide (4 * s.dmc.sidIdle[sid] + 250 * idle ≤ 4 * s.now) then
      { s with dmc := { s.dmc with sidPd := s.dmc.sidPd ||| BitVec.ofNat 8 (2 ^ sid.val) } }
    else s)

/-- Every queued request retires (step 2 of R328) and all rows close; requests without a token go on waiting (R38). -/
def State.drainPc (s : State) (p : Fin 64) : State :=
  let s := (s.pc p).queued.foldl (fun s r => s.retire p r .clean) s
  s.setPc p { s.pc p with rows := [] }

/-- Enter self-refresh (R328): requests retired, rows closed, owed refreshes issued, the clock stopped; the on-die counts are read at this
entry (R311). -/
def State.selfRefresh (s : State) : State :=
  if s.dmc.state = .run then
    let s := (List.finRange 64).foldl (fun s (p : Fin 64) => s.drainPc p) s
    { s with dmc := { s.dmc with state := .selfRefresh, sidPd := 0, deferred := [], pauses := [], odeccDue := s.now
                                 debt := s.dmc.debt.filter fun e => decide (e.2 < 0) } }
  else s

/-- Training fails in some pseudo-channels (R326). -/
def State.trainFail (s : State) (mask : BitVec 64) : State :=
  let s := (s.setReg idDmcFailLo (loWord mask.toNat)).setReg idDmcFailHi (hiWord mask.toNat)
  ({ s with dmc := { s.dmc with state := .failed } }).raiseN 192 0 0

/-- A training of all pseudo-channels ends: the controller runs from here, or the training has failed in some of them (R326). -/
def State.trained (s : State) (fails : BitVec 64) : State :=
  if fails = 0 then
    let s := { s with dmc := { s.dmc with state := .run, lastPass := Vector.replicate 32 s.now, deferred := [], pauses := []
                                          sidIdle := Vector.replicate 8 s.now, scrubAt := s.now * 2 ^ 32 } }
    s.grantAll
  else s.trainFail fails

/-- Leave self-refresh through the short training of R326. The dies have refreshed themselves. -/
def State.leaveRefresh (s : State) (fails : BitVec 64) : State :=
  if s.dmc.state = .selfRefresh then s.refreshFrom.trained fails else s

/-- DRAM contents are lost. -/
def State.dramLost (s : State) : State :=
  { s with dmc := { s.dmc with mem := [], upset := [], poison := [], healed := [], state := .train, pcs := Vector.replicate 64 PseudoCh.reset, debt := []
                               refT := [], deferred := [], pauses := [], sidPd := 0 } }

/-! ### Scrub (R331) and on-die counts (R311) -/

/-- Hours of a patrol pass; 0 acts as 1 (R331). -/
def State.scrubHours (s : State) : Nat := max 1 (s.rf idScrub 7 0)

/-- 4 ns units in an hour. -/
def hourTime : Nat := 900000000000

/-- SCRUB_READ (R331): the patrol reads its next beat while its bank is idle; the 2^32 beats of a pass spread evenly over its period (log
entry 119). -/
def execScrubRead (err : EccErr) (s : State) : Out :=
  .next (
    let a := 8 * s.dmc.scrubPos
    let busy := (s.pc (pcOf a)).queued.any fun r => bankKey r.req.addr == bankKey a
    if s.dmcRuns && bit (s.reg idDmcCtrl) 0 && !busy && decide (s.dmc.scrubAt ≤ s.now * 2 ^ 32) then
      let s := { s with dmc := { s.dmc with scrubAt := s.dmc.scrubAt + s.scrubHours * hourTime } }
      let s := (((s.wakeSid (dramSid a)).touchSid (dramSid a)).arise a 8 err).readErr a 8 true fun _ => true
      if s.dmc.scrubPos + 1 < 2 ^ 32 then { s with dmc := { s.dmc with scrubPos := s.dmc.scrubPos + 1 } }
      else (({ s with dmc := { s.dmc with scrubPos := 0 } }).addCtr idScrubPasses 1).raiseN 197 0 0
    else s)

/-- ODECC_READ (R311): every second, and at an entry into self-refresh, the firmware accumulates each die's on-die correction count. -/
def execOdeccRead (counts : List Nat) (s : State) : Out :=
  .next (if s.fw && s.up dDmc && decide (s.dmc.odeccDue ≤ s.now) then
    (List.range 8).foldl (fun s k => s.addCtr (idOdecc k) (counts.getD k 0)) { s with dmc := { s.dmc with odeccDue := s.now + 250000000 } }
  else s)

/-! ### Commands -/

/-- The regions of R314: base and size. -/
def dramRegion (k : Nat) : Option (Nat × Nat) :=
  match k with
  | 0 => some (0, 0x600000000)
  | 1 => some (0x600000000, 0x40000000)
  | 2 => some (0x640000000, 0x100000000)
  | 3 => some (0x740000000, 0xA0000000)
  | 4 => some (0x7E0000000, 0x20000000)
  | _ => none

/-- DRAM_MAP (R314): base and size of a region, at the payload places of log entry 20. -/
def execDramMap (c : Cmd) (s : State) : Out :=
  .next (if s.mayStart c 0x0701 then
    match dramRegion (c.arg 0 1) with
    | none => s.refuse c 0x0108
    | some r => s.done c (leBytes 8 r.1 ++ leBytes 8 r.2)
  else s)

/-- DRAM_SCRUB (R331): address and length at the payload places of log entry 20; it ends in SLOW_COMMAND_DONE. -/
def execDramScrub (c : Cmd) (s : State) : Out :=
  .next (if s.mayStart c 0x0702 then
    if 2 ^ 35 < c.arg 0 8 + c.arg 8 8 then s.refuse c 0x0108 else s.startCmd c
  else s)

/-- The range of a DRAM_SCRUB, with the errors that have arisen in it by the time it is read. -/
def State.scrubArise (s : State) (c : Cmd) (r : SlowResult) : State :=
  let inside := beatIn (c.arg 0 8) (c.arg 8 8)
  s.arise 0 dramSize ⟨r.ce.filter inside, r.ue.filter inside⟩

/-- How many beats of n bytes at a a scrub corrects, and how many are uncorrectable. -/
def State.scrubFound (s : State) (a n : Nat) : Nat × Nat :=
  let l := s.badBeats a n
  let ues := (l.filter fun e => s.poisoned e.1 || mapFind s.dmc.upset e.1 == some true).length
  (l.length - ues, ues)

/-- A scrub of n bytes at a under class BE: its bytes do not count (R331, R332). -/
def State.scrubRun (s : State) (a n : Nat) : State :=
  let t := (s.charge .host a n 0).readErr a n true fun _ => true
  if (s.scrubFound a n).2 = 0 then t else t.raiseN 198 0 0

/-- The end of a DRAM_SCRUB (R331), once its reads have their tokens (R316). -/
def State.scrubDone (s : State) (c : Cmd) (r : SlowResult) : State :=
  if !s.room .host (c.arg 0 8) (c.arg 8 8) then s
  else
    let t := s.scrubArise c r
    let found := t.scrubFound (c.arg 0 8) (c.arg 8 8)
    (t.scrubRun (c.arg 0 8) (c.arg 8 8)).done c (leBytes 8 found.1 ++ leBytes 8 found.2)

end Sys2Proof.Machine
end

