-- ==== Sys2Proof/Machine/Refocus.lean ====
section
/-!
DEFINITION. Refocus: rebuild triggers and the rebuild (R136 to R138, R141, R143), the swap at a tick (R139, R140), the tables of a
cluster that powers up (R142), and REFOCUS_REBUILD_DONE, RFC_FORCE_WRITE and REFOCUS_READ.
-/
namespace Sys2Proof.Machine

/-- The regions that hold an active hogel, in raster order (R125): region (rx, ry) is 32 * ry + rx. -/
def State.regions (s : State) : List Nat :=
  let qw := s.rf idRasterSize 5 0
  (List.range (ceilDiv (2 * s.rf idRasterSize 15 6) 64)).flatMap fun ry => (List.range qw).map fun rx => 32 * ry + rx

/-- The temperature a rebuild uses for region r: the field's T_r, else its last valid one, else T_REF (R143). -/
def State.regionTemp (s : State) (r : Nat) : Int :=
  match mapFind s.thm.field r with
  | some t => t
  | none => (mapFind s.thm.lastField r).getD s.rayMap.coeff.tRef

/-- Start a rebuild: capture the panel field, set BUSY and count the generation (R138). With ENABLE = 0 it writes identity entries (R137).
ENABLE and the coefficients that count are those of the start (log entry 151). The temperatures become those of the most recently built
table when it is built. -/
def State.rfcBegin (s : State) : State :=
  let gen := (s.rfc.gen + 1) % 2 ^ 16
  let temps := s.regions.map fun r => (r, s.regionTemp r)
  let entries := if bit (s.reg idRfcCtrl) 0
    then temps.map fun e => (e.1, rfEntry s.rayMap.coeff (e.1 % 32) (e.1 / 32) e.2) else []
  { s with rfc := { s.rfc with busy := true, busyAt := s.now, gen := gen, building := ⟨gen, entries⟩, buildTemps := temps, kept := false } }

/-- A trigger of R137 other than a THM update: it starts a rebuild, starts nothing while one is BUSY or READY, and is kept
while FREEZE = 1 (R141) or until the firmware runs again. -/
def State.rfcTrigger (s : State) : State :=
  if bit (s.reg idRfcCtrl) 1 || !s.fw then { s with rfc := { s.rfc with kept := true } }
  else if s.rfc.busy || s.rfc.ready then s
  else s.rfcBegin

/-- Does some region's temperature, where it is valid, differ by more than THRESH from the one that the most recently built table used
(R137, log entry 151)? -/
def State.rfcMoved (s : State) : Bool :=
  s.thm.field.any fun e =>
    decide (16 * (fld (s.reg idRfcCtrl) 15 8) < (e.2 - (mapFind s.rfc.used e.1).getD s.rayMap.coeff.tRef).natAbs)

/-- The trigger of a THM update (R137): evaluated again at a later update when it finds a rebuild BUSY or READY, or FREEZE. Without a ray
map, and so without T_REF, it starts none (log entry 151). -/
def State.rfcThm (s : State) : State :=
  if !s.fw || s.rfc.busy || s.rfc.ready || bit (s.reg idRfcCtrl) 1 || !s.rayMap.loaded then s
  else if s.rfcMoved then s.rfcBegin else s

/-- FREEZE has cleared, or no rebuild is BUSY or READY any more: a kept trigger starts its rebuild (R141). -/
def State.rfcKept (s : State) : State :=
  if s.fw && s.rfc.kept && !s.rfc.busy && !s.rfc.ready && !bit (s.reg idRfcCtrl) 1 then s.rfcBegin else s

/-- The table of cluster c that is active, or the other one. -/
def State.rfcTab (s : State) (c : Fin 12) (act : Bool) : RfGen := if s.rfc.active == act then s.rfc.tabB[c] else s.rfc.tabA[c]

def State.setRfcTab (s : State) (c : Fin 12) (act : Bool) (g : RfGen) : State :=
  if s.rfc.active == act then { s with rfc := { s.rfc with tabB := s.rfc.tabB.set c g } }
  else { s with rfc := { s.rfc with tabA := s.rfc.tabA.set c g } }

/-- Write the generation being built into the inactive table of every powered cluster (R138). -/
def State.rfcWrite (s : State) : State :=
  (List.finRange 12).foldl (fun s (c : Fin 12) => if s.up (dEc c.val) then s.setRfcTab c false s.rfc.building else s) s

/-- A cluster that powers up takes the generation in force, and the one that waits (R142). -/
def State.rfcFill (s : State) (c : Fin 12) : State :=
  let s := s.setRfcTab c true ((s.rfc.history.head?).getD RfGen.reset)
  if s.rfc.busy || s.rfc.ready then s.setRfcTab c false s.rfc.building else s

/-- Is READY set as the tick generator sees it on its edge (R139)? One set in the same TIME_CLK counts as not set. -/
def State.rfcSeen (s : State) : Bool := s.rfc.ready && decide (s.rfc.readyAt < s.now)

/-- What the tick generator decides on its edge: a swap (R139), or that a rebuild is late (R140). -/
def State.rfcSwap (s : State) : Bool := s.rfcSeen && !bit (s.reg idRfcCtrl) 1
def State.rfcLate (s : State) : Bool := !s.rfcSeen && s.rfc.busy && decide (s.rfc.busyAt + 250000 ≤ s.now)

/-- Step 4 of R51: the swap (R139), or a late rebuild (R140), as the tick's edge has decided. -/
def State.rfcTick (s : State) (t : TickMsg) : State :=
  if t.swap && s.rfc.ready then
    let s := { s with rfc := { s.rfc with active := !s.rfc.active, ready := false, busy := false, genActive := s.rfc.building.gen,
                                          history := (s.rfc.building :: s.rfc.history).take 4 } }
    let s := s.raiseN 298 s.rfc.genActive 0
    s.rfcKept
  else if t.late then
    let s := s.addCtr idRfcLate 1
    s.raiseN 299 s.rfc.gen (s.ctr idRfcLate % 2 ^ 32)
  else s

/-- REFOCUS_REBUILD_DONE (R138): the inactive tables are written and READY is set. -/
def execRefocusRebuildDone (s : State) : Out :=
  .next (if s.fw && s.rfc.busy && !s.rfc.ready then
    let s := s.rfcWrite
    { s with rfc := { s.rfc with ready := true, readyAt := s.now, used := s.rfc.buildTemps } } else s)

/-- RFC_FORCE_WRITE (R137, R141). -/
def execRfcForceWrite (s : State) : Out := .next (if s.up dCtrl then s.rfcTrigger else s)

/-- REFOCUS_READ (R144): the entries of a kept generation, in the raster order of the regions. The payload's places are those
of log entry 14: the generation at 0x00, RESULT at 0x08. -/
def execRefocusRead (c : Cmd) (s : State) : Out :=
  .next (if s.mayStart c 0x0402 then
    let n := 32 * s.regions.length
    match s.rfc.history.find? fun g => g.gen == c.arg 0 2 with
    | none => s.refuse c 0x0108
    | some g =>
      if !resultOk (c.arg 8 8) n then s.refuse c 0x010A
      else if !s.resultRoom (c.arg 8 8) n then s
      else
        (s.putResult (c.arg 8 8) (s.regions.flatMap fun r => rfBytes (mapGet (fun _ => rfIdentity) g.entries r))).done c []
  else s)

end Sys2Proof.Machine
end

