-- ==== Sys2Proof/Machine/Time.lean ====
section
/-!
DEFINITION. The time unit (chapter 18) and the tick generator (R45 to R50): views and adjustments, the passing of one TIME_CLK
cycle, ticks, timed outputs, strobes and the PTP port.
-/
namespace Sys2Proof.Machine

/-- The TIME domain is powered and has its clock (R533, R534). -/
def State.timeRuns (s : State) : Bool := s.up dTime && s.locked 2

/-! ### Views within a cycle -/

/-- The view of timebase b j ns of local time after the last edge (R440: 1 ns steps). -/
def State.viewPlus (s : State) (b j : Nat) : Int :=
  let t := s.tb b
  let c := s.cCount + (j : Int) * 2 ^ 30
  if s.unified then t.base + cSince t.anchor c + Int.fdiv (cSince t.anchor c * t.rate) (2 ^ 32)
  else t.v + Int.fdiv ((j : Int) * (2 ^ 32 + t.rate)) 4

/-- The first of the 1 ns steps of this cycle at which a view reaches a time, if one does. -/
def State.reachStep (s : State) (b : Nat) (t : Int) : Option Nat := (List.range 4).find? fun j => decide (t ≤ s.viewPlus b j)

/-- Local time in ns (R425). -/
def State.localNs (s : State) : Nat := 4 * s.time.edges

/-! ### The tick function (R45, R46, R48) -/

/-- A time from SEC, NS and FRAC in 2^-30 ns (R424). -/
def timeOf (sec ns frac : Nat) : Int := (((sec * 1000000000 + ns) * 2 ^ 16 + frac : Nat) : Int) * 2 ^ 14

def State.epoch (s : State) : Int :=
  timeOf ((s.reg idEpochSecLo).toNat + s.rf idEpochSecHi 15 0 * 2 ^ 32) (s.reg idEpochNs).toNat (s.rf idEpochFrac 15 0)

def State.rateNum (s : State) : Nat := (s.reg idRateNum).toNat
def State.rateDen (s : State) : Nat := (s.reg idRateDen).toNat

/-- The tick view at the last edge. -/
def State.tickTime (s : State) : Int := s.view s.tickTb

/-- B + I(t) at the last edge; none while I(t) is undefined. -/
def State.tickIndex (s : State) : Option Nat :=
  let d := s.tickTime - s.epoch
  if d < 0 ∨ s.rateDen = 0 then none
  else some (s.tick.base + (d * s.rateNum / ((s.rateDen : Int) * 1000000000 * 2 ^ 30)).toNat)

/-- The nominal time of tick k (R48) as a fraction: numerator over RATE_NUM, in 2^-30 ns. -/
def State.nominalNum (s : State) (k : Nat) : Int :=
  s.epoch * s.rateNum + ((k : Int) - s.tick.base) * s.rateDen * 1000000000 * 2 ^ 30

/-- Set TIME_TICK.CTRL.RUN (R48, R50): a wrong rate or a WALL setting that R48 does not allow refuses it with E4. -/
def State.runSet (s : State) : State :=
  if s.run then s
  else
    let n := s.rateNum
    let d := s.rateDen
    let wall := bit (s.reg idTickCtrl) 1
    if n = 0 ∨ d = 0 ∨ n < 48 * d ∨ 240 * d < n then s.settingRefused idTickCtrl 1
    else if wall && !(s.unified && bit (s.reg idTimeCfg) 1) then s.settingRefused idTickCtrl 1
    else
      let s :=
        if wall then { s with tick := { s.tick with base := 0 } }
        else
          let w := wOf s.tickTime
          let s := (((s.setReg idEpochSecLo (loWord (secOf w))).setReg idEpochSecHi (hiWord (secOf w))).setReg idEpochNs
            (BitVec.ofNat 32 (nsOf w))).setReg idEpochFrac (BitVec.ofNat 32 (fracOf w))
          { s with tick := { s.tick with base := match s.tick.last with | none => 0 | some k => k + 1 } }
      let s := s.setRf idTickCtrl 0 0 1
      { s with tick := { s.tick with first := true, stretched := false }
               easels := Vector.ofFn fun q => { s.easels[q] with prevArrival := none } }

/-- The hardware sets RUN, unless your write of it falls in the same clock: then yours wins, and the update is applied in the next (R16,
R443). -/
def State.hwRunSet (s : State) : State :=
  if s.tick.hostRunAt = some s.now then { s with tick := { s.tick with runLate := true } }
  else { s.runSet with tick := { s.runSet.tick with hwRunAt := some s.now } }

/-- Points of the strobe grid that have passed (R339). -/
def State.gridPoints (s : State) : Nat := (s.time.edges - s.tick.gridFrom) / 2 ^ 20

/-- Clear RUN (R50): check strobes begin at the next point of their grid (R339). -/
def State.runClear (s : State) : State :=
  let t := s.setRf idTickCtrl 0 0 0
  if s.run then { t with tick := { t.tick with strobesRun := s.gridPoints } } else t

/-- Your write of RUN, which wins over a hardware update in the same clock (R16). -/
def State.hostRun (s : State) (v : Bool) : State :=
  let late := s.tick.runLate || s.tick.hwRunAt == some s.now
  let s := if v then s.runSet else s.runClear
  { s with tick := { s.tick with hostRunAt := some s.now, runLate := late } }

/-! ### Timed outputs (R440 to R443) -/

def State.out (s : State) (n : Nat) : TimedOut := if h : n < 4 then s.time.outs[n] else ⟨0, none, false, false⟩

def State.setOut (s : State) (n : Nat) (o : TimedOut) : State :=
  if h : n < 4 then { s with time := { s.time with outs := s.time.outs.set n o } } else s

def State.toTb (s : State) (n : Nat) : Nat := s.rf (idTo n 0) 2 1
def State.toArmed (s : State) (n : Nat) : Bool := bit (s.reg (idTo n 0)) 31
def State.toPeriod (s : State) (n : Nat) : Nat := (s.reg (idTo n 4)).toNat

/-- START of a channel in 2^-30 ns. -/
def State.toStart (s : State) (n : Nat) : Int :=
  timeOf ((s.reg (idTo n 1)).toNat + s.rf (idTo n 2) 15 0 * 2 ^ 32) (s.reg (idTo n 3)).toNat 0

/-- The time of a channel's next rising edge. -/
def State.toNext (s : State) (n : Nat) : Int := s.toStart n + ((s.out n).k : Int) * s.toPeriod n * 2 ^ 30

/-- The number of a channel's edges, from number k on, whose times a view has reached at v. -/
def State.toPassed (s : State) (n k : Nat) (v : Int) : Nat :=
  let st := s.toStart n
  if v < st then 0
  else if s.toPeriod n = 0 then (if k = 0 then 1 else 0)
  else ((v - st) / ((s.toPeriod n : Int) * 2 ^ 30)).toNat + 1 - k

/-- m edges of a channel are missed (R441): a once-pulse clears ARM; a periodic channel owes one edge. -/
def State.toMiss (s : State) (n m : Nat) : State :=
  if m = 0 then s
  else
    let s := (s.addCtr (idTo n 6) m).raiseN 517 0 0
    if s.toPeriod n = 0 then s.setRf (idTo n 0) 31 31 0
    else s.setOut n { s.out n with k := (s.out n).k + m, due := true }

/-- Arm a channel (R440): edges already reached are missed (R441). -/
def State.toArm (s : State) (n : Nat) : State :=
  let s := (s.setRf (idTo n 0) 31 31 1).setOut n { s.out n with k := 0, due := false, fired := false }
  s.toMiss n (s.toPassed n 0 (s.view (s.toTb n)))

/-- A forward jump of timebase b from v to v': the edges that it passes are missed (R441). -/
def State.toJump (s : State) (b : Nat) (v v' : Int) : State :=
  (List.range 4).foldl (fun s n =>
    if s.toArmed n && s.toTb n == b && decide (v < v') then
      let k := (s.out n).k
      s.toMiss n (s.toPassed n k v' - s.toPassed n k v)
    else s) s

/-! ### One TIME_CLK cycle (R425, R427 to R429) -/

/-- Apply the oldest adjustment of timebase b at the present edge (R429). -/
def State.adjust (s : State) (b : Nat) : State :=
  let t := s.tb b
  match t.adj with
  | [] => s
  | (isStep, x) :: rest =>
    let v := s.view b
    if isStep then
      let s := s.setTb b (if s.unified then { t with base := t.base + x, adj := rest } else { t with v := t.v + x, adj := rest })
      let s := s.toJump b v (v + x)
      if s.run && s.tickTb == b && s.tick.last.isSome && decide (x < 0) then
        (s.raiseN 513 0 0 : State) |> fun s => { s with tick := { s.tick with stretched := true } }
      else s
    else if s.unified then s.setTb b { t with base := v, anchor := s.cCount, rate := x, adj := rest }
    else s.setTb b { t with rate := x, adj := rest }

/-- In STANDBY a module that an access woke, or that has come up, goes back to the low-power state once it has nothing left to send
(R356, log entry 128). -/
def State.linkIdle (s : State) : State :=
  if s.pmu.mode = .standby ∧ s.dk.running ∧ s.pmu.trans.isNone then
    { s with ucie := Vector.ofFn fun (m : Fin 2) =>
        let u := s.ucie[m]
        if u.link = .up ∧ u.cpls = [] ∧ u.waiting = [] ∧ u.freed = Vector.replicate 4 0 ∧ s.evu.queue = [] then { u with link := .lowPower }
        else u }
  else s

/-- At the end of a clock the stamps that found queue 43 full, and for which no read has freed an entry, are dropped (R438). -/
def State.tsLate (s : State) : State :=
  s.time.ptp.excess.foldl (fun s _ =>
    (s.setPool 43 { s.pool 43 with produced := ((s.pool 43).produced + 1) % 2 ^ 64, dropped := ((s.pool 43).dropped + 1) % 2 ^ 64 }).raiseN 514 0 0)
    { s with time := { s.time with ptp := { s.time.ptp with excess := [] } } }

/-- A hardware update of RUN that your write held off is applied in the next clock (R16). -/
def State.runApply (s : State) : State :=
  if s.tick.runLate then { s with tick := { s.tick with runLate := false } }.runSet else s

/-- Errors arise in cells of the stack (R329, R330): which, is free (log entry 143). -/
def State.cellsUpset (s : State) : State :=
  if s.up dDmc then ((Config.upsets s.now).filter fun e => decide (8 * e.1 < dramSize)).foldl (fun s e => s.setUpset e.1 e.2) s else s

/-- Errors arise in groups of the NVM (R518): which, is free (log entry 143). -/
def State.nvmUpsets (s : State) : State := { s with nvm := (Config.nvmUpsets s.now).foldl Nvm.upset s.nvm }

/-- One cycle passes: adjustments apply at the present edge, then the next edge comes. -/
def State.cycle (s : State) : State :=
  let s := ({ s.tsLate with now := s.now + 1 }).railTimeout.supplyNext.linkIdle.cellsUpset.nvmUpsets
  if s.timeRuns then
    let s := (List.range 4).foldl (fun s b => s.adjust b) s
    { s.runApply with time := { s.runApply.time with edges := s.time.edges + 1
                                                     tb := if s.unified then s.time.tb
                                                           else Vector.ofFn fun b => { s.time.tb[b] with v := s.time.tb[b].v + 2 ^ 32 + s.time.tb[b].rate } } }
  else s

/-- Reload every timebase to time 0 with rate 0 (R426). -/
def State.timeReload (s : State) : State :=
  { s with time := { s.time with tb := Vector.replicate 4 ⟨0, 0, s.cCount, 0, []⟩ } }

/-! ### Ticks -/

/-- TICK_FIRE (R46, R47): on an edge at which B + I(t) exceeds the last index. -/
def execTickFire (s : State) : Out :=
  .next (
    match s.tickIndex with
    | none => s
    | some k =>
      let later := match s.tick.last with | none => true | some l => decide (l < k)
      if s.timeRuns && s.run && later then
        let skipped := match s.tick.last with
          | none => 0
          | some l => if s.tick.first then 0 else k - l - 1
        let s := if skipped = 0 then s else (s.addCtr idSkipped skipped).raiseN 512 (min skipped (2 ^ 32 - 1)) 0
        { s with tick := { s.tick with last := some k, first := false, stretched := false, gridFrom := s.time.edges, strobesRun := 0
                                       toArrive := s.tick.toArrive ++ [⟨k, skipped + b2n s.tick.stretched, wOf s.tickTime, s.rfcSwap, s.rfcLate⟩] }
                 time := { s.time with tickView := wOf (s.view 0), tickHigh := s.time.edges + 16 } }
      else s)

/-- TICK_RUN_SET (R48, R50). -/
def execTickRunSet (s : State) : Out := .next (if s.up dTime then s.hostRun true else s)

/-- TICK_RUN_CLEAR (R50). -/
def execTickRunClear (s : State) : Out := .next (if s.up dTime then s.hostRun false else s)

/-! ### Reading and adjusting time -/

/-- The count that a readout block shows (R431), in 2^-16 ns: TB0 to TB3, C, and TB0 at the last tick. -/
def State.blockView (s : State) (i : Nat) : Nat :=
  if i < 4 then wOf (s.view i) else if i = 4 then wOf s.cCount else s.time.tickView

/-- TIMEBASE_READ_CAPTURE (R431). -/
def execTimebaseReadCapture (blk : Fin 6) (s : State) : Out :=
  .next (if s.up dTime then { s with time := { s.time with holds := s.time.holds.set blk (s.blockView blk) } } else s)

/-- Is timebase b disciplined by the firmware's servo (R435)? -/
def State.tbOwned (s : State) (b : Nat) : Bool := bit (s.reg idPtpCfg) 31 && !bit (s.reg idPtpCfg) 25 && s.ptpTb == b

/-- TIME_GET (R430). -/
def execTimeGet (c : Cmd) (s : State) : Out :=
  .next (if s.mayStart c 0x0801 then
    let b := c.arg 0 1
    if 3 < b then s.refuse c 0x0801
    else
      let w := wOf (s.view b)
      s.done c (leBytes 6 (secOf w) ++ leBytes 4 (nsOf w) ++ leBytes 2 (fracOf w)
        ++ leBytes 1 (b2n s.time.ptp.locked + 2 * b2n (s.tbOwned b)))
  else s)

/-- The steps of a timebase that wait for their edge, together. -/
def Timebase.stepsAhead (t : Timebase) : Int := ((t.adj.filter fun a => a.1).map Prod.snd).sum

/-- TIME_ADJUST (R430): the adjustment waits for its edge behind those that wait (R429), which its range check takes in. -/
def execTimeAdjust (c : Cmd) (s : State) : Out :=
  .next (if s.mayStart c 0x0802 then
    let b := c.arg 0 1
    let op := c.arg 1 1
    let x := signed 64 (c.arg 8 8)
    let t := s.tb b
    let after := s.view b + t.stepsAhead + x * 2 ^ 14
    if 3 < b ∨ 1 < op then s.refuse c 0x0801
    else if op = 1 ∧ 2 ^ 22 < x.natAbs then s.refuse c 0x0801
    else if op = 0 ∧ (after < 0 ∨ (2 ^ 48 : Int) * 1000000000 * 2 ^ 30 < after) then s.refuse c 0x0801
    else if s.tbOwned b then s.refuse c 0x0802
    else
      (s.setTb b { t with adj := t.adj ++ [if op = 0 then (true, x * 2 ^ 14) else (false, x)] }).done c
        (leBytes 8 (s.time.edges + t.adj.length))
  else s)

/-! ### The PTP port -/

def State.setPtp (s : State) (p : Ptp) : State := { s with time := { s.time with ptp := p } }

/-- Put a stamp into the timestamp queue (R438). -/
def State.tsPut (s : State) (e : TsEntry) : State :=
  let q := s.pool 43
  (s.setPool 43 { q with issued := (q.issued + 1) % 2 ^ 64, produced := (q.produced + 1) % 2 ^ 64 }).setPtp
    { s.time.ptp with queue := s.time.ptp.queue ++ [e] }

/-- Remove n entries from the front of the timestamp queue; each counts as read (R437, R438). A stamp that has found the queue full in this
clock takes the place (R438). -/
def State.tsDrop (s : State) (n : Nat) : State :=
  let p := s.time.ptp
  let k := 16 - (p.queue.length - n)
  let s := (s.giveBack 43 (min n p.queue.length)).setPtp { p with queue := p.queue.drop n, excess := p.excess.drop k }
  (p.excess.take k).foldl (fun s e => s.tsPut e) s

/-- Lose LOCKED (R435). -/
def State.ptpUnlock (s : State) : State :=
  if s.time.ptp.locked then (s.setPtp { s.time.ptp with locked := false, good := 0 }).raiseN 516 0 0
  else s.setPtp { s.time.ptp with good := 0 }

/-- The checks of PTP_CONFIG (R432, R436, R437). -/
def ptpArgOk (c : Cmd) : Bool :=
  let cfg := BitVec.ofNat 32 (c.arg 0 4)
  let inLog (i : Nat) (lo hi : Int) : Bool := decide (lo ≤ signed 8 (c.arg i 1) ∧ signed 8 (c.arg i 1) ≤ hi)
  fld cfg 29 28 != 3 && fld cfg 21 7 == 0 && inLog 4 (-7) 4 && inLog 5 (-7) 5 && inLog 6 (-3) 4 && decide (2 ≤ c.arg 7 1) &&
  c.arg 0x0E 2 == 0 && c.arg 0x16 2 == 0 && (!bit cfg 25 || (!bit cfg 27 && bit cfg 26))

/-- PTP_CONFIG (R437): the port stops and the timestamp queue empties; the rest comes with SLOW_COMMAND_DONE. -/
def execPtpConfig (c : Cmd) (s : State) : Out :=
  .next (if s.mayStart c 0x0803 then
    if ptpArgOk c then
      let s := (s.tsDrop s.time.ptp.queue.length).ptpUnlock
      ((s.setRf idPtpCfg 31 31 0).setPtp { s.time.ptp with port := 2 }).startCmd c
    else s.refuse c 0x0803
  else s)

/-- The end of PTP_CONFIG: the settings apply and the port restarts in INITIALIZING. -/
def State.ptpConfigDone (s : State) (c : Cmd) : State :=
  let s := (s.setReg idPtpCfg (BitVec.ofNat 32 (c.arg 0 4))).setReg idPtpLat (BitVec.ofNat 32 (c.arg 0x1C 4))
  (s.setPtp { s.time.ptp with settings := c.payload.take 32, port := 0, seen := [], inbox := [], good := 0, lastSync := s.now }).done c []

/-- The port's MAC and IPv4 address (R437). -/
def State.ptpMac (s : State) : List Byte := padTo 6 ((s.time.ptp.settings.drop 0x10).take 6)
def State.ptpIp (s : State) : List Byte := padTo 4 ((s.time.ptp.settings.drop 0x18).take 4)

/-- The clockIdentity: the EUI-64 of the MAC address (R432). -/
def State.clockIdentity (s : State) : List Byte := s.ptpMac.take 3 ++ [0xFF, 0xFE] ++ s.ptpMac.drop 3

/-- The identity of the clock's one port: clockIdentity and port number 1. -/
def State.portIdentity (s : State) : List Byte := s.clockIdentity ++ [0, 1]

/-- The multicast destinations of R432, at layer 2 and for IPv4. -/
def ptpGroups (transport : Nat) : List (List Byte) :=
  if transport = 0 then [[0x01, 0x1B, 0x19, 0, 0, 0], [0x01, 0x80, 0xC2, 0, 0, 0x0E]] else [[224, 0, 1, 129], [224, 0, 0, 107]]

/-- Is a frame addressed to the port (R433): to a multicast destination of its transport, or to the port's own address? -/
def State.ptpToUs (s : State) (fr : PtpFrame) : Bool :=
  (ptpGroups fr.transport).contains fr.dst || fr.dst == (if fr.transport = 0 then s.ptpMac else s.ptpIp)

/-- The protocol's new port state and offset take effect, and the servo acts (R435, R436). -/
def State.ptpAct (s : State) (fr : PtpFrame) (stamp : Int) : State :=
  let p := s.time.ptp
  let seen := .rx fr stamp :: p.seen
  let s := s.setPtp { p with seen := seen, port := Config.ptpState p.settings p.link seen % 8
                             lastSync := if fr.msgType = 0 then s.now else p.lastSync }
  let s := if s.time.ptp.port = 7 then s else s.ptpUnlock
  let s := match Config.ptpOffset p.settings seen with
    | none => s
    | some o =>
      let s := s.setPtp { s.time.ptp with offset := o }
      let s :=
        if o.natAbs ≤ 100 * 2 ^ 16 then
          let g := s.time.ptp.good + 1
          let rise := !s.time.ptp.locked && decide (16 ≤ g)
          let s := s.setPtp { s.time.ptp with good := g, locked := s.time.ptp.locked || rise }
          if rise then s.raiseN 515 0 0 else s
        else if 1000 * 2 ^ 16 < o.natAbs then s.ptpUnlock
        else s.setPtp { s.time.ptp with good := 0 }
      if bit (s.reg idPtpCfg) 25 then s
      else
        let b := s.ptpTb
        let t := s.tb b
        if 100000 * 2 ^ 16 < o.natAbs ∧ bit (s.reg idPtpCfg) 24 then s.setTb b { t with adj := t.adj ++ [(true, -o * 2 ^ 14)] }
        else s.setTb b { t with adj := t.adj ++ [(false, clampInt (-2147483) 2147483 (Config.ptpRate p.settings seen))] }
  if fr.msgType = 9 then
    let p := s.time.ptp
    s.setPtp { p with queue := p.queue.map fun e =>
      if fr.requester = s.portIdentity ∧ e.msgType = 1 ∧ e.seqId = fr.seqId ∧ e.offset.isNone ∧ !e.noResp
      then { e with offset := some (Config.ptpTsOffset p.settings p.seen) } else e }
  else s

/-- The firmware takes the frames that wait (R38, R433); messages of another domain are ignored. -/
def State.ptpTake (s : State) : State :=
  if s.fw then
    let l := s.time.ptp.inbox
    (l.filter fun e => e.1.dom == s.rf idPtpCfg 6 0).foldl (fun s e => s.ptpAct e.1 e.2) (s.setPtp { s.time.ptp with inbox := [] })
  else s

/-- The firmware resumes: with SERVO = FW it reads every entry of the timestamp queue (R439), and it takes the frames that wait. -/
def State.ptpResume (s : State) : State :=
  (if s.fw && !bit (s.reg idPtpCfg) 25 then s.tsDrop s.time.ptp.queue.length else s).ptpTake

/-- The latency that a receive stamp subtracts, in 2^-16 ns (R434): the port's own of 96.0 ns, or 35.2 ns rounded to the unit, and PTP.LAT's. -/
def State.rxLatency (s : State) : Nat :=
  (if bit (s.reg idPtpCfg) 30 then 2306867 else 96 * 2 ^ 16) + s.rf idPtpLat 31 16 * 256

/-- PTP_FRAME_RX (R433, R434): an accepted frame waits while the firmware does not run, every other is dropped and counted. -/
def execPtpFrameRx (fr : PtpFrame) (s : State) : Out :=
  .next (
    let cfg := s.reg idPtpCfg
    let tr := fld cfg 29 28
    let enabled := (fr.transport == 0 && tr != 1) || (fr.transport == 1 && tr != 0)
    if s.up dTime && bit cfg 31 && s.time.ptp.link then
      if fr.version == 2 && enabled && s.ptpToUs fr then
        (s.setPtp { s.time.ptp with inbox := s.time.ptp.inbox ++ [(fr, (wOf (s.view s.ptpTb) : Int) - s.rxLatency)] }).ptpTake
      else s.addCtr idRxDropped 1
    else s)

/-- The port's own transmit latency in 2^-16 ns (R434): 48.0 ns, or 22.4 ns rounded to the unit. -/
def State.txLatency (s : State) : Nat :=
  (if bit (s.reg idPtpCfg) 30 then 1468006 else 48 * 2 ^ 16) + s.rf idPtpLat 15 0 * 256

/-- PTP_TX_STAMP (R434, R438, R439): a stamp that finds the queue full is dropped at the end of the clock, unless a read of the same clock
frees an entry. -/
def execPtpTxStamp (seqId : BitVec 16) (msgType : BitVec 4) (s : State) : Out :=
  .next (if s.timeRuns && bit (s.reg idPtpCfg) 31 && s.time.ptp.link && decide (msgType.toNat ≤ 3) then
    let p := s.time.ptp
    let stamp := (wOf (s.view s.ptpTb) : Int) + s.txLatency
    let e : TsEntry := ⟨stamp, seqId, msgType, p.tag, s.now, none, false⟩
    let s := s.setPtp { p with tag := (p.tag + 1) % 256, seen := .tx seqId msgType stamp :: p.seen }
    if p.queue.length < 16 then
      let s := s.tsPut e
      -- with SERVO = FW the firmware reads every entry itself (R439; log entry 15)
      if !bit (s.reg idPtpCfg) 25 && s.fw then s.tsDrop s.time.ptp.queue.length else s
    else s.setPtp { s.time.ptp with excess := s.time.ptp.excess ++ [e] }
  else s)

def TsEntry.complete (e : TsEntry) : Bool := e.offset.isSome || e.noResp

/-- TS_ENTRY_TIMEOUT (R439): 1 s after transmission without a Delay_Resp. -/
def execTsEntryTimeout (s : State) : Out :=
  .next (
    let p := s.time.ptp
    s.setPtp { p with queue := p.queue.map fun e =>
      if e.offset.isNone ∧ e.queuedAt + 250000000 ≤ s.now then { e with noResp := true } else e })

/-- TS_READ (R439). -/
def execTsRead (c : Cmd) (s : State) : Out :=
  .next (if s.mayStart c 0x0804 then
    if !bit (s.reg idPtpCfg) 25 then s.refuse c 0x0805
    else
      match s.time.ptp.queue with
      | [] => s.refuse c 0x0804
      | e :: rest =>
        if TsEntry.complete e then
          let w := e.stamp.toNat
          let fl := e.msgType.toNat + 16 * b2n e.noResp + 32 * b2n (rest.any TsEntry.complete)
          (s.tsDrop 1).done c (leBytes 6 (secOf w) ++ leBytes 4 (nsOf w) ++ leBytes 2 (fracOf w) ++ leBytes 2 e.seqId.toNat
            ++ leBytes 1 e.tag ++ leBytes 1 fl ++ leBytes 8 (if e.noResp then 0 else unsigned 64 (e.offset.getD 0)))
        else s.refuse c 0x0804
  else s)

/-- PTP_SYNC_TIMEOUT (R435): no Sync within announceReceiptTimeout announce intervals. -/
def execPtpSyncTimeout (s : State) : Out :=
  .next (
    let p := s.time.ptp
    let log := signed 8 (leAt p.settings 6 1)
    let tmo := leAt p.settings 7 1 * (if 0 ≤ log then 250000000 * 2 ^ log.toNat else 250000000 / 2 ^ (-log).toNat)
    if s.up dTime && p.locked && decide (p.lastSync + tmo ≤ s.now) then s.ptpUnlock else s)

/-- PTP_LANE_LOCK_CHANGE (chapter 18, R435). -/
def execPtpLaneLockChange (up : Bool) (s : State) : Out :=
  .next (if s.up dTime && up && !s.locked 14 then s.pllRetry 14
  else if s.up dTime then
    let p := s.time.ptp
    let s := s.setPtp { p with link := up, port := if bit (s.reg idPtpCfg) 31 then Config.ptpState p.settings up p.seen % 8 else p.port }
    if s.time.ptp.port = 7 then s else s.ptpUnlock
  else s)

/-! ### Timed-output rows -/

/-- TIMED_OUTPUT_ARM (R440, R441): writing ARM = 1; an armed channel stays as it is. -/
def execTimedOutputArm (n : Fin 4) (s : State) : Out :=
  .next (if s.up dTime && !s.toArmed n then s.toArm n else s)

/-- A channel's next rising edge, or the one owed after a jump, if a step of this clock reaches it (R440 to R443, R510). An edge that falls in a
running pulse is missed; an owed one waits for the pulse to end (log entry 144). -/
def State.outEdge (s : State) (n : Fin 4) : State :=
  let o := s.out n
  let once := s.toPeriod n == 0
  let step : Option Nat := if o.due then some 0 else if once && decide (0 < o.k) then none else s.reachStep (s.toTb n) (s.toNext n)
  if s.timeRuns && s.toArmed n then
    match step with
    | none => s
    | some j =>
      let k' := if o.due then o.k else o.k + 1
      if o.pulseEnd.isSome then
        if o.due then s
        else if once then ((s.addCtr (idTo n 6) 1).raiseN 517 0 0).setRf (idTo n 0) 31 31 0
        else ((s.addCtr (idTo n 6) 1).raiseN 517 0 0).setOut n { o with k := k' }
      else
        let alarm := bit (s.reg idWakeCfg) 3 && s.rf idWakeCfg 13 12 == n.val && !o.fired
        let s := if alarm then { s with pmu := { s.pmu with alarm := true } } else s
        if bit (s.reg (idTo n 0)) 3 then
          let s := if o.fired then s else s.hwRunSet
          let s := s.setOut n { o with k := k', due := false, fired := true }
          if once then s.setRf (idTo n 0) 31 31 0 else s
        else s.setOut n ⟨k', some (s.localNs + j + (s.reg (idTo n 5)).toNat), false, true⟩
  else s

/-- TIMED_OUTPUT (R442): one step at one edge; an edge of the old program in the same clock fires. -/
def execTimedOutput (c : Cmd) (s : State) : Out :=
  .next (if s.mayStart c 0x0805 then
    let n := c.arg 0 1
    let old := s.outEdge (Fin.ofNat 4 n)
    let ctl := BitVec.ofNat 32 (c.arg 4 4)
    let per := c.arg 0x14 4
    let wid := c.arg 0x18 4
    if 3 < n ∨ wid < 4 ∨ (per ≠ 0 ∧ per ≤ wid) then s.refuse c 0x0806
    else
      let s := old.setReg (idTo n 0) (mkWord [(4, 1, fld ctl 4 1)])
      let s := ((((s.setReg (idTo n 1) (BitVec.ofNat 32 (c.arg 8 4))).setReg (idTo n 2) (BitVec.ofNat 32 (c.arg 0xC 2))).setReg
        (idTo n 3) (BitVec.ofNat 32 (c.arg 0xE 4))).setReg (idTo n 4) (BitVec.ofNat 32 per)).setReg (idTo n 5) (BitVec.ofNat 32 wid)
      (s.toArm n).done c []
  else s)

/-- TIMED_OUTPUT_EDGE (R440 to R443, R510). -/
def execTimedOutputEdge (n : Fin 4) (s : State) : Out := .next (s.outEdge n)

/-- TIMED_OUTPUT_WIDTH_END (R440): the pulse falls after WIDTH ns of local time; ARM clears after a once-pulse. -/
def execTimedOutputWidthEnd (n : Fin 4) (s : State) : Out :=
  .next (
    match (s.out n).pulseEnd with
    | none => s
    | some e =>
      if s.timeRuns && decide (e ≤ s.localNs + 3) then
        let s := s.setOut n { s.out n with pulseEnd := none }
        if s.toPeriod n = 0 ∧ 0 < (s.out n).k then s.setRf (idTo n 0) 31 31 0 else s
      else s)

/-! ### Strobes (R444) -/

def State.setStrobe (s : State) (m : Fin 4) (b : Strobe) : State :=
  { s with time := { s.time with strobes := s.time.strobes.set m b } }

/-- Is tick j a raster tick (R79)? -/
def State.isRaster (s : State) (j : Nat) : Bool := !s.expo.d2 || j % 2 == 0

/-- A raster tick after the one that arrived last has fired, or fires at this edge. -/
def State.rasterFired (s : State) : Bool :=
  (s.tick.toArrive.any fun m => s.isRaster m.idx) ||
  (s.run && match s.tickIndex with
    | none => false
    | some j => s.isRaster j && (match s.tick.last with | none => true | some l => decide (l < j)))

/-- STROBE_FIRE (R444): at nominal(k) + OFFSET of the tick generator's view, not before the tick's edge; an edge at or after the next raster
tick is missed, at that tick's arrival; the panel-safe sequence holds the strobe inactive. -/
def execStrobeFire (m : Fin 4) (s : State) : Out :=
  .next (
    let b := s.time.strobes[m]
    match b.due with
    | none => s
    | some k =>
      let goal := s.nominalNum k + ((s.reg (idStbOffset m)).toNat : Int) * s.rateNum * 2 ^ 30
      let step := (List.range 4).find? fun j => decide (goal ≤ s.viewPlus s.tickTb j * s.rateNum)
      if s.timeRuns && !s.rasterFired then
        match step with
        | none => s
        | some j =>
          if s.panel.strobesHeld then s.setStrobe m { b with due := none }
          else s.setStrobe m ⟨none, some (s.localNs + j + s.rf (idStbCtrl m) 23 8)⟩
      else s)

/-- STROBE_WIDTH_END (R444). -/
def execStrobeWidthEnd (m : Fin 4) (s : State) : Out :=
  .next (
    match s.time.strobes[m].pulseEnd with
    | none => s
    | some e => if s.timeRuns && decide (e ≤ s.localNs + 3) then s.setStrobe m { s.time.strobes[m] with pulseEnd := none } else s)

/-- The level of pin TIME_OUT_n (R445): a channel that targets the tick generator drives no pin (R443), and strobes may be held inactive (R444). -/
def State.timeOutPin (s : State) (n : Fin 4) : Bool :=
  let src := s.rf idPinsel (4 * n + 3) (4 * n)
  s.up dTime && (match src with
    | 0 => (s.time.outs[n].pulseEnd.isSome) != (bit (s.reg (idTo n 0)) 4 && !bit (s.reg (idTo n 0)) 3)
    | 5 => decide (s.time.edges < s.time.tickHigh)
    | 7 => true
    | k => if h : 1 ≤ k ∧ k ≤ 4 then !s.panel.strobesHeld && (s.time.strobes[(⟨k - 1, by omega⟩ : Fin 4)]).pulseEnd.isSome else false)

end Sys2Proof.Machine
end

