-- ==== Sys2Proof/Machine/Ledger.lean ====
section
/-!
DEFINITION. The Ledger (R336 to R340): the check of every pool's account at a tick or at a check strobe, and the restart of a pool.
-/
namespace Sys2Proof.Machine

/-- A pool's home domain and its clock's bit of CLK.LOCK (R336, R535). -/
def poolHome (k : Nat) : Nat × Nat :=
  if k < 4 ∨ k = 8 then (dUa, 15) else if k < 8 ∨ k = 9 then (dUb, 16) else if k < 18 ∨ k = 44 then (dCtrl, 1)
  else if k < 24 then (dDmc, 5) else if k < 33 ∨ k = 41 ∨ k = 42 then (dFab, 3)
  else if k < 37 then (dEasel (k - 33), 6 + (k - 33)) else if k < 41 then (dEasel (k - 37), 6 + (k - 37)) else (dTime, 2)

/-- Does pool k's slice check (R36, R339)? Its home is powered and its clock runs; the DMC clock is stopped in self-refresh. -/
def State.sliceRuns (s : State) (k : Nat) : Bool :=
  s.up (poolHome k).1 && s.locked (poolHome k).2 && !((poolHome k).1 == dDmc && s.dmc.state == .selfRefresh)

/-- The first condition of R338 that a pool with this account and this INFLIGHT fails, 0 when it holds all. -/
def poolFault (k : Nat) (p : Pool) (inflight : Nat) : Nat :=
  if (p.issued + 2 ^ 64 - p.returned) % 2 ^ 64 ≠ inflight % 2 ^ 64 then 1
  else if (match poolSize k with | some n => decide (n < inflight) | none => false) then 2
  else if (k = 43 ∨ k = 44) ∧ p.produced ≠ (p.issued + p.dropped) % 2 ^ 64 then 3
  else 0

/-- Pool k's bit of the Ledger's fault mask. -/
def State.poolFaulty (s : State) (k : Nat) : Bool :=
  if k < 32 then bit (s.reg idLedFaultLo) k else bit (s.reg idLedFaultHi) (k - 32)

/-- Latch a slice's snapshots (R338). -/
def State.sliceSnap (s : State) (k : Nat) (p : Pool) (inflight : Nat) : State :=
  let two := decide (k = 43 ∨ k = 44)
  ((((s.setSnap (idLedSnap k 0) p.issued).setSnap (idLedSnap k 1) p.returned).setSnap (idLedSnap k 2)
    (if two then p.produced else 0)).setSnap (idLedSnap k 3) (if two then p.dropped else 0)).setReg (idLedInflight k)
    (BitVec.ofNat 32 (min 65535 inflight))

/-- A failed check (R340). A slice that fails while FAB is down, in STANDBY, sets its bit and the record, but FAB's clamps hold E96, and
it is not raised later (R35, log entry 126). -/
def State.ledgerFault (s : State) (k cond inflight : Nat) : State :=
  if s.poolFaulty k then s
  else
    let first := s.reg idLedFaultLo = 0 ∧ s.reg idLedFaultHi = 0
    let s := if first then s.setReg idLedStatus (BitVec.ofNat 32 (2 ^ 31 + 64 * cond + k)) else s
    let s := if k < 32 then s.setReg idLedFaultLo (s.reg idLedFaultLo ||| BitVec.ofNat 32 (2 ^ k))
      else s.setReg idLedFaultHi (s.reg idLedFaultHi ||| BitVec.ofNat 32 (2 ^ (k - 32)))
    s.raiseN 96 (k + 256 * cond) inflight

/-- Every slice checks its pool, with the values that the pools had in s0 (R338, R52). -/
def State.ledgerCheck (s s0 : State) : State :=
  (List.range 45).foldl (fun s k =>
    if s.sliceRuns k then
      let p := s0.pool k
      let n := s0.occupancy k
      let s := s.sliceSnap k p n
      if poolFault k p n = 0 then s else s.ledgerFault k (poolFault k p n) n
    else s) s

/-- Pools restart from zero (R337). -/
def State.poolsZero (s : State) (l : List Nat) : State := l.foldl (fun s k => s.setPool k Pool.reset) s

/-- Pool k's slice is reset (R337, R340, R536, R537): its values restart from zero, its fault bit clears, and its snapshot registers reset. -/
def State.sliceReset (s : State) (k : Nat) : State :=
  let s := (s.setPool k Pool.reset).sliceSnap k Pool.reset 0
  let s := if k < 32 then s.setReg idLedFaultLo (s.reg idLedFaultLo &&& ~~~ BitVec.ofNat 32 (2 ^ k))
    else s.setReg idLedFaultHi (s.reg idLedFaultHi &&& ~~~ BitVec.ofNat 32 (2 ^ (k - 32)))
  if s.reg idLedFaultLo = 0 ∧ s.reg idLedFaultHi = 0 then s.setReg idLedStatus 0 else s

def State.slicesReset (s : State) (l : List Nat) : State := l.foldl (fun s k => s.sliceReset k) s

/-- LEDGER_CHECK_STROBE (R339): a point of the grid is reached while the tick generator is stopped. -/
def execLedgerCheckStrobe (s : State) : Out :=
  .next (
    if s.timeRuns && !s.run && decide (s.tick.strobesRun < s.gridPoints) then
      ({ s with tick := { s.tick with strobesRun := s.gridPoints } }).ledgerCheck s
    else s)

end Sys2Proof.Machine
end

