-- ==== Sys2Proof/Machine/Nvm.lean ====
section
/-!
DEFINITION. The NVM (chapter 22): the end of a page write and what a loss of power leaves, the NVM commands, the state ring and the
reading of records. The record writes themselves stand in Machine/Ops.lean, saved copies in Machine/Registers.lean.
-/
namespace Sys2Proof.Machine

/-- Store a page and its state (R516, R517). -/
def State.setPage (s : State) (p : Nat) (bytes : List Byte) (st : NvmPage) : State :=
  let m := ((List.range 64).zip (padTo 64 bytes)).foldl (fun m e => mapSet nvmByte0 m (64 * p + e.1) e.2) s.nvm.bytes
  { s with nvm := { s.nvm with bytes := m, pages := mapSet nvmPage0 s.nvm.pages p st } }

/-- A page as an interrupted write leaves it (R517). n is how far it came: 0 in the erase, 1 + g in group g, 9 in the
commit word. -/
def cutPage (bytes : List Byte) (n : Nat) : List Byte × NvmPage :=
  if n = 0 then (List.replicate 64 0xFF, ⟨2, 0xFF, 0, 0⟩)
  else ((padTo 64 bytes).take (8 * (n - 1)) ++ List.replicate (64 - 8 * (n - 1)) 0xFF,
    ⟨2, if n = 9 then 0 else 2 ^ (n - 1), 0, 0⟩)

/-- Power fails (R517): the running page write stops where it is, a free value; the other requests are never served. -/
def State.nvmCut (s : State) : State :=
  match s.nvm.jobs with
  | [] => s
  | j :: _ =>
    let n := Config.freeBelow s.fresh 10
    let c := cutPage j.bytes n
    let s := { s with fresh := s.fresh + 1 }
    ({ s with nvm := { s.nvm with jobs := [], results := [] } }).setPage j.page c.1 c.2

/-- A read meets page p (R529): E553 once per page per power-on. -/
def State.meetPage (s : State) (p : Nat) (asRecord : Bool) : State :=
  let st := s.nvmState p
  if (st.st = 2 ∨ (asRecord ∧ st.ue ≠ 0)) ∧ !s.nvm.tornSeen.contains p then
    (({ s with nvm := { s.nvm with tornSeen := p :: s.nvm.tornSeen } }).addCtr idTornSeen 1).raiseN 553 p 0
  else s

def State.meetPages (s : State) (l : List Nat) (asRecord : Bool) : State := l.foldl (fun s p => s.meetPage p asRecord) s

/-- What NVM_READ returns of a page (R527). -/
def State.pageReport (s : State) (p : Nat) : List Byte :=
  let st := s.nvmState p
  s.nvmPage p ++ leBytes 1 (st.st + 4 * b2n (st.ce != 0) + 8 * b2n (st.ue != 0)) ++ leBytes 1 st.torn ++ leBytes 1 st.ue ++
  List.replicate 5 0

/-- The pages that LOG_READ returns (R527): from the newest back, until a BLANK one. -/
def State.logPages (s : State) (skip n : Nat) : List Nat :=
  match ({ s with nvm := { s.nvm with jobs := [] } } : State).ringTop 1024 512 fun _ => true with
  | none => []
  | some (top, _) =>
    let l := ((List.range 512).map fun i => 1024 + (top + 512 - i) % 512).takeWhile fun p => (s.nvmState p).st ≠ 1
    (l.drop skip).take n

/-- What a read of command c has returned is written to its RESULT area before the response (R385), or waits until the stack accepts
requests (R316, R328, log entry 154). -/
def State.readResult (s : State) (c : Cmd) (bytes : List Byte) : State :=
  if s.resultRoom (c.arg 8 8) bytes.length then (s.putResult (c.arg 8 8) bytes).done c []
  else { s with nvm := { s.nvm with results := s.nvm.results ++ [(c, bytes)] } }

/-- The results of a read that waited for the stack, behind SLOW_COMMAND_DONE. -/
def State.resultDone (s : State) (c : Cmd) : State :=
  match s.nvm.results.find? fun e => e.1 == c with
  | none => s
  | some e =>
    if s.resultRoom (c.arg 8 8) e.2.length then
      (({ s with nvm := { s.nvm with results := s.nvm.results.erase e } }).putResult (c.arg 8 8) e.2).done c []
    else s

/-- The port serves an NVM_READ (R518, R527, R529); a command that has ended meanwhile asks nothing. -/
def State.servePages (s : State) (c : Cmd) : State :=
  let l := (List.range (c.arg 2 2)).map fun i => c.arg 0 2 + i
  if s.waits c then (s.meetPages l false).readResult c (l.flatMap fun q => s.pageReport q) else s

/-- The port serves a LOG_READ (R526, R527). -/
def State.serveLog (s : State) (c : Cmd) : State :=
  let l := s.logPages (c.arg 2 2) (c.arg 0 2)
  if s.waits c then (s.meetPages l true).readResult c (l.flatMap fun q => s.nvmPage q) else s

/-- The last step of an accepted PPI_LOAD, once its record is written (R462). -/
def State.ppiValid (s : State) (c : Cmd) : State :=
  if s.waits c then ({ s with cal := { s.cal with profile := .valid, loading := false } }).done c [] else s

/-- A page write is refused by the protection that stands when it would start (R519). -/
def State.writeRefused (s : State) (j : NvmJob) : State :=
  match j.use with
  | .record => s.addCtr idProtRefused 1
  | .ppi c => (s.addCtr idProtRefused 1).ppiValid c
  | .save c => let s := s.addCtr idProtRefused 1; if s.waits c then s.fail c 0x0A01 else s
  | .userWrite c => if s.waits c then s.refuse c 0x0A01 else s
  | _ => s

/-- The request at the front leaves the port. -/
def State.nvmPop (s : State) : State := { s with nvm := { s.nvm with jobs := s.nvm.jobs.drop 1 } }

/-- The port serves up to n waiting requests in the order of their arrival (R515), until a page write runs: reads at once; a write to a page
that is protected by then is refused before its erase (R519). -/
def State.nvmServe : Nat → State → State
  | 0, s => s
  | n + 1, s =>
    match s.nvm.jobs with
    | [] => s
    | j :: _ =>
      match j.use with
      | .read c => State.nvmServe n (s.nvmPop.servePages c)
      | .logRead c => State.nvmServe n (s.nvmPop.serveLog c)
      | _ =>
        if s.nvmProtected j.page then State.nvmServe n (s.nvmPop.writeRefused j)
        else { s with nvm := { s.nvm with since := s.now, lastPage := j.page, lastWriter := j.writer } }

/-- A command's read arrives at the port (R515): it is served at once, or held behind what arrived before it. -/
def State.nvmAsk (s : State) (u : NvmUse) : State :=
  let free := s.nvm.jobs == []
  let s := { s with nvm := { s.nvm with jobs := s.nvm.jobs ++ [⟨0, [], 0, u⟩] } }
  if free then State.nvmServe 1 s else s

/-- NVM_PAGE_WRITE_DONE (R515, R516): the commit word of the running write is programmed, and the port serves on. -/
def execNvmPageWriteDone (s : State) : Out :=
  .next (
    match s.nvm.jobs with
    | [] => s
    | j :: rest =>
      if s.up dAon then
        let s := ((s.setPage j.page j.bytes ⟨0, 0, 0, 0⟩).addCtr idNvmWrites 1).nvmPop
        let s := match j.use with
          | .tripPage => { s with nvm := { s.nvm with tripDue := true } }
          | .save c => if s.waits c then s.done c [] else s
          | .ppi c => s.ppiValid c
          | .userWrite c => (if s.waits c then s.done c [0] else s).raiseN 554 j.page 0
          | _ => s
        State.nvmServe rest.length s
      else s)

/-- NVM_READ (R515, R518, R527). -/
def execNvmRead (c : Cmd) (s : State) : Out :=
  .next (if s.mayStart c 0x0A01 then
    let p := c.arg 0 2
    let n := c.arg 2 2
    if 4095 < p ∨ 4095 < n then s.refuse c 0x0A03
    else if n = 0 ∨ 64 < n then s.refuse c 0x0108
    else if 4096 < p + n then s.refuse c 0x0A03
    else if !resultOk (c.arg 8 8) (72 * n) then s.refuse c 0x010A
    else (s.startCmd c).nvmAsk (.read c)
  else s)

/-- NVM_WRITE (R519, R521, R527): the final response comes with the end of the page write. Its source is read once the stack accepts
requests (R316, R328). -/
def execNvmWrite (c : Cmd) (s : State) : Out :=
  .next (if s.mayStart c 0x0A02 then
    let p := c.arg 0 2
    if 4095 < p then s.refuse c 0x0A03
    else if p < 2560 then s.refuse c 0x0A02
    else if s.nvmProtected p then s.refuse c 0x0A01
    else if !hostRange (c.arg 8 8) 64 then s.refuse c 0x010A
    else if !s.room .firmware (c.arg 8 8) 64 then s
    else ((s.startCmd c).access .firmware (c.arg 8 8) 64).nvmSubmit ⟨p, s.dramRead (c.arg 8 8) 64, 0, .userWrite c⟩
  else s)

/-- The stored value and SEQ of counter ring k (R522). -/
def State.ctrStored (s : State) (k : Nat) : Nat × Nat :=
  let s := { s with nvm := { s.nvm with jobs := [] } }
  match s.ctrTop k with
  | none => (0, 0)
  | some (i, q) => (leAt (s.nvmPage (16 * k + i)) 8 8, q)

/-- COUNTER_READ (R522, R523, R527). -/
def execCounterRead (c : Cmd) (s : State) : Out :=
  .next (if s.mayStart c 0x0A03 then
    let k := c.arg 0 1
    if 7 < k then s.refuse c 0x0108
    else
      let st := s.ctrStored k
      s.done c (leBytes 8 (s.cntVal k) ++ leBytes 4 st.1 ++ leBytes 4 st.2)
  else s)

/-- LOG_READ (R515, R526, R527). -/
def execLogRead (c : Cmd) (s : State) : Out :=
  .next (if s.mayStart c 0x0A04 then
    let n := c.arg 0 2
    if 4095 < n then s.refuse c 0x0A03
    else if n = 0 ∨ 64 < n then s.refuse c 0x0108
    else if !resultOk (c.arg 8 8) (64 * n) then s.refuse c 0x010A
    else (s.startCmd c).nvmAsk (.logRead c)
  else s)

/-! ### The state ring and the PPI record (R525) -/

/-- The pages of the records that the firmware reads (R521 to R528). -/
def recordPages : List Nat := List.range 546 ++ (List.range 512).map (1024 + ·) ++ (List.range 512).map (2048 + ·)

/-- The newest page of the state ring. -/
def State.stateTop (s : State) : Option (Nat × Nat) := s.ringTop 512 16 fun _ => true

/-- LAST_MODE as stored; 0 for no mode. -/
def State.lastModeStored (s : State) : Nat :=
  match s.stateTop with
  | none => 0
  | some (i, _) => leAt ((s.nvmAhead (512 + i)).getD []) 4 4

/-- Write LAST_MODE (R525). -/
def State.writeLastMode (s : State) (m : Nat) : State :=
  let top := s.stateTop.getD (15, 0)
  let s := { s with cnt := { s.cnt with lastMode := m } }
  s.nvmRecord (512 + (top.1 + 1) % 16) (leBytes 4 (top.2 + 1) ++ leBytes 4 m)

/-- A PPI record (R525): SEQ, load count, trailer digest, PANEL_ID and PROFILE_TIME. -/
structure PpiRecord where
  seq : Nat
  loads : Nat
  digest : List Byte
  panelId : List Byte
  time : List Byte
deriving DecidableEq, Repr

/-- The record in force: the pair with the highest SEQ whose two pages are usable and agree, and its place in the ring. -/
def State.ppiRecord (s : State) : Option (Nat × PpiRecord) :=
  (List.range 8).foldl (fun best i =>
    match s.nvmAhead (528 + 2 * i), s.nvmAhead (529 + 2 * i) with
    | some a, some b =>
      if leAt a 0 4 = leAt b 0 4 then
        let r : PpiRecord := ⟨leAt a 0 4, leAt a 4 4, (a.drop 0x10).take 48, (b.drop 4).take 16, (b.drop 0x14).take 8⟩
        match best with
        | some (_, r0) => if r0.seq < r.seq then some (i, r) else best
        | none => some (i, r)
      else best
    | _, _ => best) none

/-- Write the next PPI record, its first page first (R525), for a PPI_LOAD that ends with it (R462). -/
def State.writePpiRecord (s : State) (c : Cmd) (loads : Nat) (digest panelId time : List Byte) : State :=
  let top := match s.ppiRecord with | none => (7, 0) | some (i, r) => (i, r.seq)
  let i := (top.1 + 1) % 8
  let s := s.nvmRecord (528 + 2 * i)
    (leBytes 4 (top.2 + 1) ++ leBytes 4 loads ++ List.replicate 8 0 ++ padTo 48 digest)
  let j : NvmJob := ⟨529 + 2 * i, padTo 64 (leBytes 4 (top.2 + 1) ++ padTo 16 panelId ++ padTo 8 time), 0, .ppi c⟩
  if s.nvmProtected j.page then s.writeRefused j else s.nvmSubmit j

end Sys2Proof.Machine
end

