-- ==== Sys2Proof/Machine/Blocks.lean ====
section
/-!
DEFINITION. YTC planes in the stacked DRAM: the planes of a plate buffer (R84, R88, R104, R187), the reading and storing of one
block (R207, R208), tile flags (R203 to R205), and where an address of the plate pool lies (R104, R107).
-/
namespace Sys2Proof.Machine

/-! ### Geometry -/

/-- One YTC plane: its number, layout, size in texels or samples, whether it is an alpha plane, where its slot array and its
block-state entries start. -/
structure Plane where
  no : Nat
  lay : YLayout
  w : Nat
  h : Nat
  alpha : Bool
  addr : Nat
  ent : Nat
deriving DecidableEq, Repr

def Plane.blocks (p : Plane) : Nat := blockCount p.lay p.w p.h

/-- The planes in use of a geometry (R84): number, layout, width, height, and whether it is the alpha plane (R189). -/
def Geom.planes (g : Geom) : List (Nat × YLayout × Nat × Nat × Bool) :=
  let w := g.vx * g.w
  let h := g.vy * g.h
  let main : List (Nat × YLayout × Nat × Nat × Bool) :=
    match g.fmt with
    | 0 => [(0, .e8888, w, h, true)]
    | 1 => [(0, .e1010102, w, h, true)]
    | 2 => [(0, .e16x4, w, h, true)]
    | 3 => [(0, .e16, w, h, false), (1, .e1616, w / 2, h / 2, false)] ++ (if g.a8 then [(2, .e8, w, h, true)] else [])
    | 4 => [(0, .e8, w, h, false)]
    | _ => [(0, .ea1, w, h, true)]
  main ++ (if g.typ = 1 then [(3, .e16, w, h, false)] else [])

/-- Blocks of all planes of a geometry. -/
def Geom.blocks (g : Geom) : Nat := (g.planes.map fun p => blockCount p.2.1 p.2.2.1 p.2.2.2.1).sum

/-- The reserved size (R88): the slot arrays and 2 bytes for each block. -/
def Geom.reserved (g : Geom) : Nat := 514 * g.blocks

/-- Does a geometry have an alpha plane? -/
def Geom.hasAlpha (g : Geom) : Bool := g.planes.any fun p => p.2.2.2.2

/-- The planes of a geometry placed at a base: slot arrays in plane order, then the entries plane after plane (R187). -/
def Geom.place (g : Geom) (base : Nat) : List Plane :=
  let ents := base + 512 * g.blocks
  (g.planes.foldl (fun acc p =>
    let n := blockCount p.2.1 p.2.2.1 p.2.2.2.1
    (acc.1 ++ [⟨p.1, p.2.1, p.2.2.1, p.2.2.2.1, p.2.2.2.2, base + 512 * acc.2, ents + 2 * acc.2⟩], acc.2 + n))
    (([] : List Plane), 0)).1

/-- The planes of a buffer. -/
def Buf.planes (b : Buf) : List Plane := match b.geom with | none => [] | some g => g.place b.base

def Buf.plane (b : Buf) (n : Nat) : Option Plane := b.planes.find? fun p => p.no == n

/-! ### Slots and buffers -/

def State.plate (s : State) (p : Fin 8) : PlateSlot := s.plates[p]
def State.setPlate (s : State) (p : Fin 8) (x : PlateSlot) : State := { s with plates := s.plates.set p x }
def PlateSlot.backIx (x : PlateSlot) : Fin 2 := 1 - x.front
def State.buf (s : State) (p : Fin 8) (i : Fin 2) : Buf := (s.plate p).bufs[i]
def State.setBuf (s : State) (p : Fin 8) (i : Fin 2) (b : Buf) : State :=
  s.setPlate p { s.plate p with bufs := (s.plate p).bufs.set i b }
def State.back (s : State) (p : Fin 8) : Buf := s.buf p (s.plate p).backIx
def State.frontBuf (s : State) (p : Fin 8) : Buf := s.buf p (s.plate p).front

/-- Take n write credits on a buffer (R105). -/
def State.takeCredit (s : State) (p : Fin 8) (i : Fin 2) (n : Nat) : State :=
  (s.issue (25 + p.val) n).setBuf p i { s.buf p i with credits := (s.buf p i).credits + n }

/-- Return n write credits. -/
def State.dropCredit (s : State) (p : Fin 8) (i : Fin 2) (n : Nat) : State :=
  (s.giveBack (25 + p.val) n).setBuf p i { s.buf p i with credits := (s.buf p i).credits - n }

/-! ### One block -/

/-- What a Developer delivers of a block (R208). -/
inductive Delivered where
  | bytes (b : List Byte)
  | invalid
  | uncorr
deriving DecidableEq, Repr

/-- A block-state entry as stored. -/
def State.entryAt (s : State) (a : Nat) : Nat := leNat (s.dramRead a 2)

/-- Can an entry be read: its 64-byte line is clean, or its block has been stored since the line's beats were poisoned (R106, R208)? -/
def State.entOk (s : State) (ent : Nat) : Bool :=
  s.clean (ent / 64 * 64) 64 ||
  ((mapFind s.dmc.healed ent).isSome && s.dmc.upset.all fun e => !(e.2 && beatIn (ent / 64 * 64) 64 e.1) || s.poisoned e.1)

/-- Read one block of a plane: an invalid entry, a malformed stream and uncorrectable data cannot be delivered (R189, R198,
R208). -/
def State.readBlk (s : State) (lay : YLayout) (alpha : Bool) (addr ent : Nat) : Delivered :=
  if !s.entOk ent then .uncorr
  else
    let e := s.entryAt ent
    if !entryValid alpha e then .invalid
    else if !s.clean addr (32 * (entLen e + 1)) then .uncorr
    else
      match decodeStored lay e (s.dramRead addr (32 * (entLen e + 1))) with
      | none => .invalid
      | some b => .bytes b

/-- Block number b of a plane. -/
def State.readPlane (s : State) (p : Plane) (b : Nat) : Delivered := s.readBlk p.lay p.alpha (p.addr + 512 * b) (p.ent + 2 * b)

/-- The bytes delivered, zeros for an undeliverable block. -/
def Delivered.orZero (d : Delivered) : List Byte := match d with | .bytes b => b | _ => List.replicate 512 0

def Delivered.ok (d : Delivered) : Bool := match d with | .bytes _ => true | _ => false

/-- The bytes of a block's slot that a read takes (R187, R190). -/
def State.slotLen (s : State) (ent : Nat) : Nat := 32 * (entLen (s.entryAt ent) + 1)

/-- A Developer reads a block for requester w: the entry line, and the slot's stored bytes, which count at raw size (R190, R332); their errors
are met (R329, R330). -/
def State.devRead (s : State) (w : DClient) (addr ent : Nat) : State :=
  ((s.access w (ent / 64 * 64) 64).charge w addr (s.slotLen ent) 512).readErr addr (s.slotLen ent) false fun _ => true

/-- May requester w's move of a plane have its tokens now? -/
def State.planeRoom (s : State) (w : DClient) (pl : Plane) : Bool := s.room w pl.addr (512 * pl.blocks) && s.room w pl.ent (2 * pl.blocks)

/-- The accesses of requester w for a block's two stores within a row, n bytes of its slot and its entry, which is merged into its beat (R190,
R311). -/
def State.putCharge (s : State) (w : DClient) (addr ent n : Nat) : State :=
  ((s.charge w addr n 512).charge w (ent / 32 * 32) 32 32).readErr (ent / 8 * 8) 8 false fun _ => true

/-- A Developer of Fixer f meets an undeliverable block (R208). -/
def State.fxUndelivered (s : State) (f : Nat) (d : Delivered) (addr : Nat) : State :=
  match d with
  | .bytes _ => s
  | .invalid => (s.addCtr (idFxCtr f 7) 1).raiseN 321 addr (addr / 2 ^ 32)
  | .uncorr => (s.addCtr (idFxCtr f 8) 1).raiseN 322 addr (addr / 2 ^ 32)

/-- The block and the byte within it of a texel of a plane (R104): texel byte offset for whole-byte elements. -/
def blockOf (lay : YLayout) (w x y : Nat) : Nat := (y / layoutBh lay) * blocksAcross lay w + x / layoutTexW lay

/-- The raw element at (x, y) of a block's bytes (R104); for EA1 the bit of the texel (R84). -/
def elementAt (lay : YLayout) (raw : List Byte) (x y : Nat) : Nat :=
  let ix := (y % layoutBh lay) * layoutBw lay
  if lay = .ea1 then b2n ((byteAt raw (ix + x % 64 / 8)).getLsbD (7 - x % 8))
  else leAt raw ((ix + x % layoutBw lay) * layoutElem lay) (layoutElem lay)

/-! ### Tile flags (R203 to R205) -/

/-- The alpha of every element of a raw block of an alpha plane, as the flags use it: A1 by its stored bits (R203). -/
def alphaValues (lay : YLayout) (raw : List Byte) : List Nat :=
  match lay with
  | .e8 => raw.map fun b => b.toNat * 257
  | .ea1 => raw.map fun b => if b = 0xFF then 65535 else b.toNat
  | .e8888 => (chunks 4 128 raw).map fun e => decodeAlpha 0 (leNat e) none
  | .e1010102 => (chunks 4 128 raw).map fun e => decodeAlpha 1 (leNat e) none
  | .e16x4 => (chunks 8 64 raw).map fun e => decodeAlpha 2 (leNat e) none
  | _ => []

/-- AOPQ and ATRN of a block (R203). -/
def alphaFlags (lay : YLayout) (alpha : Bool) (raw : List Byte) : Bool × Bool :=
  if alpha then ((alphaValues lay raw).all fun a => a == 65535, (alphaValues lay raw).all fun a => a == 0) else (false, false)

/-- Blocks of the alpha plane that lie in tile (tx, ty) (R186). -/
def tileBlocks (p : Plane) (tx ty : Nat) : List Nat :=
  (List.range (64 / layoutBh p.lay)).flatMap fun j => (List.range (64 / layoutTexW p.lay)).map fun i =>
    blockOf p.lay p.w (64 * tx + i * layoutTexW p.lay) (64 * ty + j * layoutBh p.lay)

/-- A tile's flags from the stored entries: bit 0 OPAQUE, bit 1 TRANSPARENT (R204); an invalid or unreadable entry gives
neither (R205). -/
def State.tileOf (s : State) (p : Plane) (tx ty : Nat) : Nat :=
  let es := (tileBlocks p tx ty).map fun b => p.ent + 2 * b
  if es.all fun a => s.entOk a && entryValid true (s.entryAt a) then
    b2n (es.all fun a => entAopq (s.entryAt a)) + 2 * b2n (es.all fun a => entAtrn (s.entryAt a))
  else 0

/-- A buffer's flag for a tile by key 256 * ty + tx. -/
def Buf.flag (b : Buf) (k : Nat) : Nat := mapGet (fun _ => b.flagBase) b.flags k

def Buf.setFlag (b : Buf) (k v : Nat) : Buf := { b with flags := mapSet (fun _ => b.flagBase) b.flags k v }

/-- The tile of block number blk of a plane (R186). -/
def tileOfBlock (p : Plane) (blk : Nat) : Nat × Nat :=
  let a := blocksAcross p.lay p.w
  (blk % a * layoutTexW p.lay / 64, blk / a * layoutBh p.lay / 64)

/-- The reads of a tile's entries, by lines, that a store into a block of the alpha plane makes (R202). -/
def tileReads (p : Plane) (blk : Nat) : List DramReq :=
  if p.alpha then
    let t := tileOfBlock p blk
    ((tileBlocks p t.1 t.2).map fun b => (p.ent + 2 * b) / 64 * 64).eraseDups.map fun a => ⟨.fixer, a, 64, 0, none, []⟩
  else []

/-- The tile-flag update of a store (R204). -/
def State.updateFlags (s : State) (slot : Fin 8) (buf : Fin 2) (p : Plane) (blk : Nat) : State :=
  if p.alpha then
    let t := tileOfBlock p blk
    s.setBuf slot buf ((s.buf slot buf).setFlag (256 * t.2 + t.1) (s.tileOf p t.1 t.2))
  else s

/-- Rebuild the flags of a buffer (R205). -/
def State.rebuildBuf (s : State) (slot : Fin 8) (i : Fin 2) : State :=
  let b := s.buf slot i
  if !b.hasData then s
  else
    match b.planes.find? fun p => p.alpha with
    | none => s.setBuf slot i { b with flagBase := 1, flags := [] }
    | some p =>
      let keys := (List.range (p.h / 64)).flatMap fun ty => (List.range (p.w / 64)).map fun tx => (tx, ty)
      s.setBuf slot i { b with flagBase := 0, flags := keys.foldl (fun m t =>
        mapSet (fun _ => 0) m (256 * t.2 + t.1) (s.tileOf p t.1 t.2)) [] }

/-- Rebuild the whole store when FAB powers up, then raise E323 (R205). -/
def State.rebuildFlags (s : State) : State :=
  let s := (List.finRange 8).foldl (fun s (p : Fin 8) => (List.finRange 2).foldl (fun s (i : Fin 2) => s.rebuildBuf p i) s) s
  s.raiseN 323 0 0

/-! ### Addresses of the plate pool -/

def poolSizeBytes : Nat := 0x600000000

/-- Does a range hold an address? -/
def inRange (base size a : Nat) : Bool := decide (base ≤ a ∧ a < base + size)

/-- The buffer whose reservation holds an address; a PLATE_OPEN that runs has made the new one of its back buffer (R88, R101). -/
def State.owner? (s : State) (a : Nat) : Option (Fin 8 × Fin 2) :=
  (List.finRange 8).findSome? fun (p : Fin 8) =>
    let x := s.plate p
    match (List.finRange 2).find? fun (i : Fin 2) => inRange x.bufs[i].base x.bufs[i].size a with
    | some i => some (p, i)
    | none =>
      match x.opening with
      | some o => if inRange o.base o.size a then some (p, x.backIx) else none
      | none => none

/-- The plane of a buffer that holds an address, with the block and the byte in it (R104). -/
def Buf.locate (b : Buf) (a : Nat) : Option (Plane × Nat × Nat) :=
  (b.planes.find? fun p => decide (p.addr ≤ a ∧ a < p.addr + 512 * p.blocks)).map fun p =>
    (p, (a - p.addr) / 512, (a - p.addr) % 512)

/-- The Fixer of a block's slot address (R199). -/
def fixerOf (a : Nat) : Fin 8 := Fin.ofNat 8 ((a / 512 % 8) ^^^ (a / 4096 % 8))

end Sys2Proof.Machine
end

