-- ==== Sys2Proof/Machine/Fixer.lean ====
section
/-!
DEFINITION. The ingest aperture's assemblies and the Fixers (R104 to R106, R199 to R204), and the readiness of a sealed buffer
(R63, R97).
-/
namespace Sys2Proof.Machine

def State.setFixer (s : State) (f : Fin 8) (x : Fixer) : State := { s with fixers := s.fixers.set f x }

/-- FAB is powered and has its clock (R534). -/
def State.fabRuns (s : State) : Bool := s.up dFab && s.locked 3

/-- No quadrant has lines left to send. -/
def State.quiet (s : State) : Bool :=
  (List.finRange 4).all fun (q : Fin 4) => s.easels[q].st != .running || decide (16 * s.rf idRasterSize 15 6 ≤ s.easels[q].sentLines)

/-- The raster has stopped on a way out of FLAT, FIELD or SERVICE: at a tick, or into STANDBY because no tick or no raster runs. -/
def State.stopped (s : State) (t : Transition) : Bool :=
  t.second || (t.target == .standby && (!s.active || !s.rasterRuns || (!s.run && s.quiet)))

/-- FAB is being drained, for a move that ends the raster's modes or a reset of DATA: it takes no new work (R342). -/
def State.fabClosing (s : State) : Bool :=
  (match s.pmu.trans with
    | some t => s.stopped t && !activeMode t.target
    | none => false) ||
  s.dk.started.any fun c => c.opcode == 0x0007 && c.arg 0 1 == 4

/-- Is a block of this buffer's plane? -/
def FixBlk.ofBuf (b : FixBlk) (p : Fin 8) (i : Fin 2) : Bool := b.slot == p && b.buf == i

def FixBlk.filling (b : FixBlk) : Bool := b.stage == .filling

/-- Bytes laid over a block from an offset. -/
def putBytes (raw : List Byte) (off : Nat) (bytes : List Byte) : List Byte :=
  raw.take off ++ bytes ++ raw.drop (off + bytes.length)

/-- The mask of n bytes from an offset; bit k for byte k of the block. -/
def spanMask (off n : Nat) : Nat := (2 ^ n - 1) * 2 ^ off

def fullMask : Nat := 2 ^ 512 - 1

/-- Add written bytes to an assembly (R105). -/
def FixBlk.write (b : FixBlk) (off : Nat) (bytes : List Byte) : FixBlk :=
  let m := b.mask ||| spanMask off bytes.length
  { b with raw := putBytes b.raw off bytes, mask := m, stage := if m = fullMask then .complete else .filling }

/-- Put an assembly back: one that has completed goes behind all others, so that the blocks that are not filling stand in the
order in which they completed (R199). -/
def putAssembly (l : List FixBlk) (k : Nat) (b : FixBlk) : List FixBlk :=
  if b.filling then l.set k b else l.eraseIdx k ++ [b]

/-! ### Readiness (R63, R97, R108) -/

/-- A SEALED buffer whose conditions all hold becomes READY and raises E297. -/
def State.evalReady (s : State) (p : Fin 8) : State :=
  let x := s.plate p
  let held := s.fixers.toList.any fun f => f.blks.any fun b => b.ofBuf p x.backIx
  if x.back = .sealed ∧ (s.back p).credits = 0 ∧ !held then
    (s.setPlate p { x with back := .ready, readyAt := s.now }).raiseN 297 p.val 0
  else s

/-! ### DRAM requests of a block (R202, R207) -/

/-- The reads of a partial block: its entry line, and the stored bytes of its slot (R106, R187, R190). -/
def State.mergeReads (s : State) (b : FixBlk) : List DramReq :=
  [⟨.fixer, b.entAddr / 64 * 64, 64, 0, some b.addr, []⟩, ⟨.fixer, b.addr, s.slotLen b.entAddr, 0, some b.addr, []⟩]

/-- The two stores of a coded block: the slot and the entry. -/
def FixBlk.slotStore (b : FixBlk) (c : Coded) : DramReq := ⟨.fixer, b.addr, c.stored.length, 2 ^ c.stored.length - 1, some b.addr, c.stored⟩
def FixBlk.entryStore (b : FixBlk) (e : Nat) : DramReq :=
  ⟨.fixer, b.entAddr / 32 * 32, 32, 3 * 2 ^ (b.entAddr % 32), some b.addr, List.replicate (b.entAddr % 32) 0 ++ padTo (32 - b.entAddr % 32) (leBytes 2 e)⟩

/-- Change block k of Fixer f. -/
def State.setBlk (s : State) (f : Fin 8) (k : Nat) (b : FixBlk) : State :=
  s.setFixer f { s.fixers[f] with blks := s.fixers[f].blks.set k b }

/-- Does an earlier block of a Fixer go to the same slot? -/
def earlierSame (l : List FixBlk) (k : Nat) (b : FixBlk) : Bool := (l.take k).any fun e => e.addr == b.addr

/-- Each partial block of Fixer f whose slot no earlier block of the Fixer goes to asks for its reads (R105, R106). -/
def State.askMerge (s : State) (f : Fin 8) : State :=
  (List.range s.fixers[f].blks.length).foldl (fun s k =>
    match s.fixers[f].blks[k]? with
    | none => s
    | some b =>
      if b.stage == .flushed && !earlierSame s.fixers[f].blks k b then
        let l := s.mergeReads b
        let s := l.foldl (fun s r => s.ask r (some b.tag) none) (s.setBlk f k { b with stage := .merging })
        l.foldl (fun s r => s.grantTokens (pcOf r.addr)) s
      else s) s

/-! ### Flushes (R106) -/

/-- Flush an incomplete assembly of Fixer f as a partial block: cause 0 PLATE_SEAL, 1 slot pressure, 2 PLATE_OPEN. -/
def State.flushAt (s : State) (f : Fin 8) (k : Nat) (cause : Nat) : State :=
  let fx := s.fixers[f]
  match fx.blks[k]? with
  | none => s
  | some b =>
    let s := (s.setFixer f { fx with blks := fx.blks.eraseIdx k ++ [{ b with stage := .flushed }] }).askMerge f
    (s.addCtr (idPlate b.slot.val 0x11) 1).raiseN 295 (b.slot.val + 16 * b.plane + 256 * cause) (b.addr / 512)

/-- The oldest assembly of Fixer f that satisfies a test. -/
def State.oldest (s : State) (f : Fin 8) (ok : FixBlk → Bool) : Option Nat := s.fixers[f].blks.findIdx? ok

/-- Flush n times the oldest incomplete assembly of a buffer in Fixer f. -/
def State.flushBufIn (f : Fin 8) (p : Fin 8) (i : Fin 2) (cause : Nat) : Nat → State → State
  | 0, s => s
  | n + 1, s =>
    match s.oldest f fun b => b.filling && b.ofBuf p i with
    | none => s
    | some k => State.flushBufIn f p i cause n (s.flushAt f k cause)

/-- Flush every incomplete assembly of a buffer. -/
def State.flushBuf (s : State) (p : Fin 8) (i : Fin 2) (cause : Nat) : State :=
  (List.finRange 8).foldl (fun s (f : Fin 8) => State.flushBufIn f p i cause s.fixers[f].blks.length s) s

/-! ### Assembly (R105) -/

/-- Where a write into the plate pool lands (R101, R104). -/
inductive PoolHit where
  | outside
  | frontOf (p : Fin 8)
  | notOpen (p : Fin 8)
  | oob (p : Fin 8)
  | plane (p : Fin 8) (i : Fin 2) (pl : Plane) (blk off : Nat)
deriving DecidableEq, Repr

def State.poolHit (s : State) (a : Nat) : PoolHit :=
  match s.owner? a with
  | none => .outside
  | some (p, i) =>
    if i = (s.plate p).front then .frontOf p
    else if (s.plate p).back ≠ .opened then .notOpen p
    else
      match (s.buf p i).locate a with
      | none => .oob p
      | some (pl, blk, off) => .plane p i pl blk off

/-- A write of bytes into a block: into its assembly, or into a new one that takes a Fixer slot and a write credit in one step
(R105, R344). Answers whether the write was taken; when it must wait and all 32 slots hold incomplete assemblies, the oldest
is flushed (R106). -/
def State.assemble (s : State) (p : Fin 8) (i : Fin 2) (pl : Plane) (blk off : Nat) (bytes : List Byte) : State × Bool :=
  let addr := pl.addr + 512 * blk
  let f := fixerOf addr
  let fx := s.fixers[f]
  if !s.fabRuns || s.fabClosing then (s, false)
  else
    match fx.blks.findIdx? fun b => b.filling && b.addr == addr with
    | some k =>
      match fx.blks[k]? with
      | none => (s, false)
      | some b => (s.setFixer f { fx with blks := putAssembly fx.blks k (b.write off bytes) }, true)
    | none =>
      if (fx.blks.filter FixBlk.holds).length < 32 ∧ s.occupancy 24 < 256 ∧ (s.buf p i).credits < 65535 then
        let b : FixBlk := ⟨8 * fx.next + f.val, p, i, pl.no, blk, addr, pl.ent + 2 * blk, pl.lay, pl.alpha, List.replicate 512 0, 0, .filling⟩
        let s := (s.takeCredit p i 1).issue 24 1
        (s.setFixer f { fx with next := fx.next + 1, blks := fx.blks ++ [b.write off bytes] }, true)
      else if 32 ≤ (fx.blks.filter FixBlk.holds).length ∧ (fx.blks.filter FixBlk.holds).all FixBlk.filling then
        match s.oldest f FixBlk.filling with
        | none => (s, false)
        | some k => (s.flushAt f k 1, false)
      else (s, false)

/-- E293 of a posted write that is dropped (R101, R573): m is the module. -/
def State.sealedWrite (s : State) (p : Fin 8) (front : Bool) (a m : Nat) : State :=
  let bk := backCode (s.plate p).back
  (s.addCtr (idPlate p.val 0x0D) 1).raiseN 293 (p.val + 16 * bk + 128 * b2n front + 256 * (a / 2 ^ 32 % 8) + 4096 * m) (a % 2 ^ 32)

/-- E296 of a write outside every plane (R104). -/
def State.oobWrite (s : State) (p : Fin 8) (a m : Nat) : State :=
  (s.addCtr (idPlate p.val 0x0F) 1).raiseN 296 (p.val + 256 * (a / 2 ^ 32 % 8) + 4096 * m) (a % 2 ^ 32)

/-- A posted write into some reservation: its effect, and whether it is done with. One that lies in no reservation is its caller's
(R104). -/
def State.ingest (s : State) (m a : Nat) (bytes : List Byte) : State × Bool :=
  match s.poolHit a with
  | .outside => (s, true)
  | .frontOf p => (s.sealedWrite p true a m, true)
  | .notOpen p => (s.sealedWrite p false a m, true)
  | .oob p => (s.oobWrite p a m, true)
  | .plane p i pl blk off => s.assemble p i pl blk off bytes

/-! ### Coding and storing -/

/-- Code a block in Fixer f (R200, R201, R203): the coded form and its entry; the adaptation states of a stored PRED block stay
for the next, and a verify mismatch raises E320. -/
def State.fixCode (s : State) (f : Fin 8) (lay : YLayout) (alpha : Bool) (raw : List Byte) (addr : Nat) (upset : Bool) :
    State × Coded × Nat :=
  let fx := s.fixers[f]
  let lc : Fin 7 := Fin.ofNat 7 (layoutCode lay)
  let c := codeBlock lay (s.reg (idFxCtrl f.val)) (nextK0 lay fx.ends[lc]) raw upset
  let fl := alphaFlags lay alpha raw
  let entry := mkEntry c.mode (c.stored.length / 32 - 1) fl.1 fl.2 c.fb
  let s := match c.ends with | none => s | some e => s.setFixer f { fx with ends := fx.ends.set lc (some e) }
  let s := if c.mismatch then (s.addCtr (idFxCtr f.val 5) 1).raiseN 320 addr (addr / 2 ^ 32) else s
  (s, c, entry)

/-- The counters of a stored block (R213). -/
def State.fixCount (s : State) (f : Nat) (c : Coded) : State :=
  let s := (s.addCtr (idFxCtr f 0) 1).addCtr (idFxCtr f (if c.mode = 1 then 1 else if c.mode = 2 then 2 else 3)) 1
  let s := if c.fallback then s.addCtr (idFxCtr f 4) 1 else s
  s.addCtr (idFxCtr f 6) c.stored.length

/-- Merge a partial block with its stored bytes (R106). -/
def State.mergePartial (s : State) (f : Fin 8) (b : FixBlk) : State × FixBlk :=
  let d := s.readBlk b.lay b.alpha b.addr b.entAddr
  let old := d.orZero
  let raw := (List.range 512).map fun k => if b.mask.testBit k then byteAt b.raw k else byteAt old k
  (s.fxUndelivered f.val d b.addr, { b with raw := raw, mask := fullMask, stage := .complete })

/-- A block whose form is decided. -/
def FixBlk.coded (b : FixBlk) : Bool := match b.stage with | .coded _ _ | .handed _ _ => true | _ => false

/-- May block k of Fixer f be coded: complete, or partial with its reads retired, and behind no uncoded block of its slot? -/
def State.codable (s : State) (f : Fin 8) (k : Nat) (b : FixBlk) : Bool :=
  (b.stage == .complete || (b.stage == .merging && !s.reqsLeft b.tag)) &&
  ((s.fixers[f].blks.take k).all fun e => e.addr != b.addr || e.coded)

/-- The oldest block of Fixer f that satisfies a test of its place and itself. -/
def State.firstBlk (s : State) (f : Fin 8) (ok : Nat → FixBlk → Bool) : Option (Nat × FixBlk) :=
  (List.range s.fixers[f].blks.length).findSome? fun k =>
    match s.fixers[f].blks[k]? with
    | none => none
    | some b => if ok k b then some (k, b) else none

/-- FIXER_CODE_BLOCK (R200 to R202): the oldest block that is complete or merged is coded, and its two stores ask for their tokens. -/
def execFixerCodeBlock (f : Fin 8) (upset : Bool) (s : State) : Out :=
  .next (
    match s.firstBlk f (s.codable f) with
    | none => s
    | some (k, b) =>
      if !s.fabRuns then s
      else
        let r := if b.stage = .merging then s.mergePartial f b else (s, b)
        let b := r.2
        let q := r.1.fixCode f b.lay b.alpha b.raw b.addr upset
        let reads := match (s.buf b.slot b.buf).plane b.plane with | none => [] | some pl => tileReads pl b.blk
        let u : StoreUnit := ⟨b.addr, b.entAddr, q.2.1.stored, q.2.2, reads⟩
        let s := q.1.setBlk f k { b with stage := .coded q.2.1 q.2.2 }
        (s.ask (b.slotStore q.2.1) (some b.tag) (some u)).ask (b.entryStore q.2.2) (some b.tag) (some u))

/-- Both stores of a coded block take their tokens in one step, when it is the turn of both (R202, R316, R344). -/
def State.grantPair (s : State) (b : FixBlk) (c : Coded) (e : Nat) : Option State :=
  let take := fun (s : State) (r : DramReq) =>
    match (s.pc (pcOf r.addr)).turn .be with
    | none => none
    | some d => if d.owner = some b.tag then s.grantOne (pcOf r.addr) d else none
  (take s (b.slotStore c)).bind fun s => take s (b.entryStore e)

/-- FIXER_TOKENS_GRANTED (R202, R37): the two class BE tokens of the oldest coded block that can have them, each of its own
pseudo-channel; both writes are with the scheduler and the Fixer slot returns. -/
def execFixerTokensGranted (f : Fin 8) (s : State) : Out :=
  .next (
    if !s.fabRuns || !s.dmcRuns then s
    else
      match s.firstBlk f (fun _ b => match b.stage with | .coded c e => (s.grantPair b c e).isSome | _ => false) with
      | none => s
      | some (k, b) =>
        match b.stage with
        | .coded c e =>
          match s.grantPair b c e with
          | none => s
          | some t =>
            let t := (t.giveBack 24 1).setBlk f k { b with stage := .handed c e }
            (t.grantTokens (pcOf b.addr)).grantTokens (pcOf b.entAddr)
        | _ => s)

/-- FIXER_STORE_RETIRED (R202, R204): the slot write, the entry write and the reads of the tile-flag update have retired; the flags are
updated and the write credit returns. -/
def execFixerStoreRetired (f : Fin 8) (s : State) : Out :=
  .next (
    let fx := s.fixers[f]
    match s.firstBlk f (fun k b => match b.stage with
      | .handed _ _ => !s.reqsLeft b.tag && !earlierSame fx.blks k b
      | _ => false) with
    | none => s
    | some (k, b) =>
      match b.stage with
      | .handed c _ =>
        if s.fabRuns then
          let s := s.setFixer f { fx with blks := fx.blks.eraseIdx k }
          let s := match (s.buf b.slot b.buf).plane b.plane with | none => s | some pl => s.updateFlags b.slot b.buf pl b.blk
          (((s.fixCount f.val c).dropCredit b.slot b.buf 1).askMerge f).evalReady b.slot
        else s
      | _ => s)

/-! ### Stores of one row (Contact, R297; images, R211) -/

/-- Does a Fixer hold a block of this plane that is no longer being assembled? Another store into the plane then waits, so that stores
retire in the order of R199. -/
def State.planeHeld (s : State) (pl : Plane) : Bool :=
  s.fixers.toList.any fun f => f.blks.any fun b => !b.filling && decide (pl.addr ≤ b.addr ∧ b.addr < pl.addr + 512 * pl.blocks)

/-- May a row store into a plane now? No Fixer holds a block of it, no read of one is in progress (R207), and its class BE requests have
their tokens. -/
def State.planeFree (s : State) (pl : Plane) : Bool :=
  !s.planeHeld pl && !s.readsIn pl.addr (pl.addr + 512 * pl.blocks) && s.planeRoom .fixer pl

/-- Store a coded block within a row: the class BE accesses of its slot, its entry and its tile's entries (R202), and the unit. -/
def State.storeNow (s : State) (pl : Plane) (blk : Nat) (stored : List Byte) (entry : Nat) : State :=
  let s := (s.putCharge .fixer (pl.addr + 512 * blk) (pl.ent + 2 * blk) stored.length).storeBlk (pl.addr + 512 * blk) (pl.ent + 2 * blk) stored entry
  (tileReads pl blk).foldl (fun s r => s.access .fixer r.addr r.len) s

/-- Store a whole raw block through its Fixer in one step, with its write credit: the form of R200, the counters, the entry and the tile
flags. Contact's stores come this way (R297, R302). -/
def State.fixStore (s : State) (p : Fin 8) (i : Fin 2) (pl : Plane) (blk : Nat) (raw : List Byte) : State :=
  let addr := pl.addr + 512 * blk
  let f := fixerOf addr
  let q := (s.takeCredit p i 1).fixCode f pl.lay pl.alpha raw addr false
  (((q.1.fixCount f.val q.2.1).storeNow pl blk q.2.1.stored q.2.2).updateFlags p i pl blk).dropCredit p i 1

end Sys2Proof.Machine
end

