-- ==== Sys2Proof/Machine/Plates.lean ====
section
/-!
DEFINITION. The plate commands (R83 to R100): PLATE_OPEN and its completion, PLATE_SEAL and PLATE_INFO.
-/
namespace Sys2Proof.Machine

/-! ### Checks and placement (R86, R88, R98) -/

/-- The geometry that a PLATE_OPEN payload names. -/
def openGeom (c : Cmd) : Geom := ⟨c.arg 1 1, c.arg 2 1, c.arg 4 2, c.arg 6 2, c.arg 8 1, c.arg 9 1, (c.arg 3 1).testBit 0⟩

/-- Check 1 of R98. -/
def openFormatOk (c : Cmd) : Bool :=
  let g := openGeom c
  decide (c.arg 0 1 ≤ 7 ∧ g.typ ≤ 2 ∧ g.fmt ≤ 5 ∧ c.arg 3 1 < 6) && (!g.a8 || g.fmt == 3) && c.arg 0x0A 6 == 0 && c.arg 0x18 8 == 0
    && (g.typ == 0 || g.fmt != 5)

/-- The limits of R86. -/
def Geom.sizeOk (g : Geom) : Bool :=
  decide (64 ≤ g.w ∧ g.w ≤ 16384 ∧ 64 ≤ g.h ∧ g.h ≤ 16384) && g.w % 64 == 0 && g.h % 64 == 0 &&
  (if g.typ = 2 then decide (1 ≤ g.vx ∧ g.vx ≤ 8 ∧ 1 ≤ g.vy ∧ g.vy ≤ 8 ∧ 2 ≤ g.vx * g.vy) else g.vx == 1 && g.vy == 1) &&
  decide (g.vx * g.w ≤ 16384 ∧ g.vy * g.h ≤ 16384)

/-- The ranges that other buffers, and PLATE_OPENs that run, hold (R88): not the back buffer of slot p. -/
def State.taken (s : State) (p : Fin 8) : List (Nat × Nat) :=
  (List.finRange 8).flatMap fun (q : Fin 8) =>
    let x := s.plate q
    let fr := s.frontBuf q
    let bk := s.back q
    (if 0 < fr.size then [(fr.base, fr.size)] else []) ++ (if q ≠ p ∧ 0 < bk.size then [(bk.base, bk.size)] else []) ++
    (match x.opening with | some o => if q = p then [] else [(o.base, o.size)] | none => [])

/-- The sum of all reservations, each PLATE_OPEN that runs counted with its new size, without slot p's back buffer. -/
def State.reservedSum (s : State) (p : Fin 8) : Nat :=
  ((List.finRange 8).map fun (q : Fin 8) =>
    (s.frontBuf q).size + (if q = p then 0 else match (s.plate q).opening with | some o => o.size | none => (s.back q).size)).sum

/-- The lowest-addressed free 512-byte-aligned range of a size (R88). -/
def lowestFree (taken : List (Nat × Nat)) (size : Nat) : Option Nat :=
  let starts := 0 :: taken.map fun r => ceilDiv (r.1 + r.2) 512 * 512
  let ok := starts.filter fun a => decide (a + size ≤ poolSizeBytes) && taken.all fun r => decide (a + size ≤ r.1 ∨ r.1 + r.2 ≤ a)
  ok.foldl (fun best a => match best with | none => some a | some b => some (min a b)) none

/-- Where a new reservation of slot p's back buffer goes (R88). -/
def State.placeBack (s : State) (p : Fin 8) (size : Nat) : Option Nat :=
  if poolSizeBytes < s.reservedSum p + size then none
  else if (s.back p).size = size then some (s.back p).base
  else lowestFree (s.taken p) size

/-- Does a pending set name slot p NEW? -/
def State.pendingNew (s : State) (p : Fin 8) : Bool := s.expo.pend.any fun e => e.actions.getD p.val 0 == 2

/-- PLATE_OPEN (R96, R98, R342): the checks, then the flush of incomplete assemblies; the buffer changes at PLATE_OPEN_DONE. -/
def execPlateOpen (c : Cmd) (s : State) : Out :=
  .next (if s.mayStart c 0x0301 && !s.fabClosing then
    let g := openGeom c
    let p : Fin 8 := Fin.ofNat 8 (c.arg 0 1)
    let x := s.plate p
    let init := c.arg 3 1 / 2 % 4
    if !openFormatOk c then s.refuse c 0x0207
    else if !g.sizeOk then s.refuse c 0x0206
    else
      match s.placeBack p g.reserved with
      | none => s.refuse c 0x0206
      | some base =>
        if init = 2 ∧ !(x.inForce && (s.frontBuf p).geom == some g) then s.refuse c 0x0207
        else if s.pendingNew p || x.back == .opening then s.refuse c 0x020D
        else if !resultOk (c.arg 0x10 8) 64 then s.refuse c 0x010A
        else
          let s := (s.startCmd c).setPlate p { x with back := .opening, opening := some ⟨c, g, init, base, g.reserved⟩ }
          s.flushBuf p x.backIx 2
  else s)

/-- Store FLAT zero into every block of a plane (R96, R204). The blocks of a PLATE_OPEN count in no FX_f counter (R213, log entry 142). -/
def State.zeroPlane (s : State) (pl : Plane) : State :=
  (List.range pl.blocks).foldl (fun s b =>
    (s.putCharge .fixer (pl.addr + 512 * b) (pl.ent + 2 * b) 32).storeBlk (pl.addr + 512 * b) (pl.ent + 2 * b) (List.replicate 32 0)
      (mkEntry 2 0 false pl.alpha false)) s

/-- Copy every block of a plane at its stored length (R96). A front block that cannot be delivered is copied as it stands, with its
entry (log entry 121). -/
def State.copyPlane (s : State) (a b : Plane) : State :=
  (List.range a.blocks).foldl (fun s n =>
    let e := s.entryAt (a.ent + 2 * n)
    let bytes := s.dramRead (a.addr + 512 * n) (32 * (entLen e + 1))
    ((s.devRead .fixer (a.addr + 512 * n) (a.ent + 2 * n)).putCharge .fixer (b.addr + 512 * n) (b.ent + 2 * n) bytes.length).storeBlk
      (b.addr + 512 * n) (b.ent + 2 * n) bytes e) s

/-- The plane table of R99. -/
def planeTable (pls : List Plane) : List Byte :=
  (List.range 4).flatMap fun n =>
    match pls.find? fun p => p.no == n with
    | some p => leBytes 8 p.addr ++ leBytes 8 (512 * p.blocks)
    | none => List.replicate 16 0

/-- The mask of planes in use. -/
def planeMask (pls : List Plane) : Nat := maskOf (pls.map fun p => p.no)

/-- PLATE_OPEN_DONE (R96, R99, R297): every write credit of the buffer is back and no Contact job has it as its destination; the reservation,
the geometry and the contents take effect and the buffer is OPEN. -/
def execPlateOpenDone (slot : Fin 8) (s : State) : Out :=
  .next (
    let x := s.plate slot
    match x.opening with
    | none => s
    | some o =>
      let old := s.back slot
      let held := s.fixers.toList.any (fun f => f.blks.any fun b => b.ofBuf slot x.backIx) ||
        s.contact.qs.toList.any fun q => q.jobs.any fun j =>
          !j.complete && (match j.dst.plate with | some (p, i, _) => p == slot && i == x.backIx | none => false)
      let pls := o.geom.place o.base
      let fb := s.frontBuf slot
      let moves := !(o.init == 0 && old.geom == some o.geom && old.hasData)
      let ready := !moves || (pls.all fun pl => s.planeFree pl) && (o.init != 2 || fb.planes.all fun pl => s.planeRoom .fixer pl)
      if s.fw && s.fabRuns && s.dmcRuns && old.credits == 0 && !held && ready && s.resultRoom (o.cmd.arg 0x10 8) 64 then
        let keep := !moves
        let nb : Buf :=
          if keep then { old with base := o.base, size := o.size }
          else if o.init = 2 then ⟨some o.geom, o.base, o.size, 0, true, fb.flagBase, fb.flags⟩
          else ⟨some o.geom, o.base, o.size, 0, true, if o.geom.hasAlpha then 2 else 1, []⟩
        let s := if keep then s
          else if o.init = 2 then (fb.planes.zip pls).foldl (fun s e => s.copyPlane e.1 e.2) s
          else pls.foldl (fun s pl => s.zeroPlane pl) s
        let s := s.setPlate slot { (s.plate slot) with back := .opened, opening := none }
        let s := s.setBuf slot x.backIx nb
        if s.waits o.cmd then
          (s.putResult (o.cmd.arg 0x10 8) (planeTable pls)).done o.cmd (leBytes 8 o.size ++ leBytes 1 (planeMask pls))
        else s
      else s)

/-- PLATE_SEAL (R97, R100, R108): partial blocks are flushed and the readiness evaluation begins. -/
def execPlateSeal (c : Cmd) (s : State) : Out :=
  .next (if s.mayStart c 0x0302 then
    if h : c.arg 0 1 < 8 then
      let p : Fin 8 := ⟨c.arg 0 1, h⟩
      let x := s.plate p
      if x.back = .opened then
        (((s.setPlate p { x with back := .sealed }).flushBuf p x.backIx 0).evalReady p).done c []
      else s.refuse c 0x020F
    else s.refuse c 0x0207
  else s)

/-- The four bytes of a buffer's geometry in PLATE_INFO (R100). -/
def geomBytes (g : Option Geom) : List Byte :=
  match g with
  | none => [0, 0, 0, 0]
  | some g => leBytes 1 g.typ ++ leBytes 1 g.fmt ++ leBytes 1 (b2n g.a8) ++ leBytes 1 ((g.vx - 1) % 8 + (g.vy - 1) % 8 * 8)

def sizeBytes (g : Option Geom) : List Byte :=
  match g with
  | none => [0, 0, 0, 0]
  | some g => leBytes 2 g.w ++ leBytes 2 g.h

/-- PLATE_INFO (R100). -/
def execPlateInfo (c : Cmd) (s : State) : Out :=
  .next (if s.mayStart c 0x0303 then
    let q := c.arg 1 1
    if h : c.arg 0 1 < 8 then
      let p : Fin 8 := ⟨c.arg 0 1, h⟩
      let x := s.plate p
      let shown := x.back ≠ .closed
      if 4 < q then s.refuse c 0x0207
      else if q = 0 then
        let bg := if shown then (s.back p).geom else none
        let fg := if x.inForce then (s.frontBuf p).geom else none
        s.done c (leBytes 4 (s.plateStatus p).toNat ++ geomBytes bg ++ sizeBytes bg ++ geomBytes fg ++ sizeBytes fg)
      else
        match if shown then (s.back p).plane (q - 1) else none with
        | none => s.done c []
        | some pl => s.done c (leBytes 8 pl.addr ++ leBytes 8 (512 * pl.blocks) ++ leBytes 1 (layoutCode pl.lay))
    else s.refuse c 0x0207
  else s)

/-! ### Roles -/

/-- The back and front buffers of slot p exchange roles (R103). -/
def State.promote (s : State) (p : Fin 8) : State :=
  let x := s.plate p
  (s.uncache fun a => x.bufs.toList.any fun b => decide (b.base ≤ a ∧ a < b.base + b.size)).setPlate p { x with front := x.backIx, inForce := true, back := .closed }

/-- DRAM contents are lost, or DATA is reset: every slot reads FRONT_VALID = 0 with its back buffer CLOSED and no buffer has a geometry,
and no exposure is in force (R96, R487, R539). The reservations stand (log entry 122). -/
def State.dropPlates (s : State) : State :=
  let s := { s with plates := Vector.ofFn fun (p : Fin 8) =>
    { s.plates[p] with inForce := false, back := .closed, opening := none
                       bufs := Vector.ofFn fun (i : Fin 2) => { s.plates[p].bufs[i] with geom := none, hasData := false, credits := 0 } } }
  { s with expo := { s.expo with hold := 0, transp := 0, order := [] }, caches := Caches.reset
           fixers := Vector.ofFn fun (f : Fin 8) => { s.fixers[f] with blks := [] } }

end Sys2Proof.Machine
end

