-- ==== Sys2Proof/Machine/Events.lean ====
section
/-!
DEFINITION. The event unit's own commands (chapter 17): a pulse, a clear, an enable or routing write, and the leaving of a message
(R370).
-/
namespace Sys2Proof.Machine

/-- EVENT_PULSE (R416). -/
def execEventPulse (p : Pulse) (s : State) : Out := .next (s.raise p.src p.lo p.hi)

/-- Clear status bits of group g, with the pulses that arrive in the same clock (R417): each is a new first occurrence. Messages of
one clock are queued in ascending E-number (R420). -/
def State.evClear (s : State) (g : Nat) (mask : Word) (same : List Pulse) : State :=
  let old := s.reg (idEvStatus g)
  let s := s.setReg (idEvStatus g) (old &&& ~~~ mask)
  let s := (List.range 32).foldl (fun s i =>
    if bit (old &&& mask) i then s.setReg (idCap (32 * g + i) 3) 0 else s) s
  (List.range 576).foldl (fun s n => (same.filter fun p => p.src.val == n).foldl (fun s p => s.raise p.src p.lo p.hi) s) s

/-- The pulses of the sources of a mask of group g, whose capture words are free values. -/
def State.maskPulses (s : State) (g : Nat) (mask : Word) : List Pulse × State :=
  ((List.range 32).filterMap fun i =>
      if bit mask i then some ⟨Fin.ofNat 576 (32 * g + i), Config.freeWord (s.fresh + 2 * i), Config.freeWord (s.fresh + 2 * i + 1)⟩ else none,
    if mask = 0 then s else { s with fresh := s.fresh + 64 })

/-- A write of v to EVU.STATUS_g in whose clock the sources of hwSet pulse (R16, R417). -/
def State.evStatusWrite (s : State) (g : Nat) (v hwSet : Word) : State :=
  let r := s.maskPulses g hwSet
  r.2.evClear g v r.1

/-- The event block and the messages of the event unit: once the firmware has started, and while CTRL has its clock (R39, R419, R531). -/
def State.evuOpen (s : State) : Bool := s.up dCtrl && s.locked 1 && s.dk.running

/-- EVENT_STATUS_CLEAR (R417). -/
def execEventStatusClear (g : Fin 18) (mask : Word) (same : List Pulse) (s : State) : Out :=
  .next (if s.evuOpen then s.evClear g mask same else s)

/-- The bits of ENABLE_g that belong to fatal sources. -/
def fatalMask (g : Nat) : Word := BitVec.ofNat 32 (maskOf ((List.range 32).filter fun i => fatalSource (32 * g + i)))

/-- Write EVU.ENABLE_g (R418, R420): a source that becomes pending with HOST = 1 queues one message. -/
def State.evEnableGroup (s : State) (g : Nat) (v : Word) : State :=
  let old := s.reg (idEvEnable g)
  let s := s.setReg (idEvEnable g) (v ||| fatalMask g)
  (List.range 32).foldl (fun s i =>
    let n := 32 * g + i
    if bit v i && !bit old i && !fatalSource n && s.evStatus n && s.evHost n then s.queueMsg n else s) s

/-- Write EVU.CFG_n (R420): VEC, and HOST where it is not read-only. -/
def State.evCfg (s : State) (n : Nat) (v : Word) : State :=
  let old := s.reg (idEvCfg n)
  let host := if fatalSource n then true else if n = 97 then false else bit v 6
  let s := s.setReg (idEvCfg n) (setFld (setFld old 5 0 (fld v 5 0)) 6 6 (b2n host))
  if host && !bit old 6 && s.evStatus n && s.evEnabled n then s.queueMsg n else s

/-- A write to an ENABLE or CFG register named by its ID. -/
def State.evRoute (s : State) (id : Nat) (v : Word) : State :=
  if 0x7401 ≤ id ∧ id < 0x7448 ∧ id % 4 = 1 then s.evEnableGroup ((id - 0x7400) / 4) v
  else if 0x7500 ≤ id ∧ id < 0x7740 then s.evCfg (id - 0x7500) v
  else s

/-- EVENT_ENABLE_WRITE (R420). -/
def execEventEnableWrite (id : Nat) (v : Word) (s : State) : Out := .next (if s.evuOpen then s.evRoute id v else s)

def State.ucieOf (s : State) (m : Fin 2) : Ucie := s.ucie[m]

def State.setUcie (s : State) (m : Fin 2) (u : Ucie) : State := { s with ucie := s.ucie.set m u }

/-- The module for the next message (R370), from its state alone. -/
def State.msgModule (s : State) : Option (Fin 2) :=
  if (s.ucieOf 0).link = .up then some 0 else if (s.ucieOf 1).link = .up then some 1 else none

/-- The header slot of an EVENT message (R358, R370). -/
def eventMsg (e : EvMsg) (seq : Nat) : List Byte :=
  layout 16 [(0, 1, 4), (6, 2, 2), (8, 1, e.vec), (9, 1, e.sev), (0xA, 2, e.src), (0xC, 4, seq)]

/-- EVENT_MESSAGE_SEND (R370, R420): the head message leaves on the chosen module when it has VC3 credit. -/
def execEventMessageSend (s : State) : Out :=
  .next (
    match s.evu.queue, s.msgModule with
    | e :: rest, some m =>
      let u := s.ucieOf m
      if s.evuOpen && u.init && decide (0 < u.cr3) then
        let s := s.setUcie m { u with cr3 := u.cr3 - 1, evSeq := (u.evSeq + 1) % 2 ^ 32, sent := eventMsg e u.evSeq :: u.sent }
        ({ s with evu := { s.evu with queue := rest } }).giveBack 44 1
      else s
    | _, _ => s)

end Sys2Proof.Machine
end

