-- ==== Sys2Proof/Machine/Trays.lean ====
section
/-!
DEFINITION. The Trays and the firmware's command layer (chapter 15): doorbells, taking a command, responses, the firmware's heartbeat
and watchdog, and the basic commands.
-/
namespace Sys2Proof.Machine

/-! ### Ring bytes (R375, R382) -/

/-- Entry i of a Tray's command ring. -/
def Tray.cmdEntry (y : Tray) (i : Nat) : List Byte := (List.range 64).map fun k => mapGet ring0 y.cmdRing (64 * (i % 256) + k)

/-- Entry i of a Tray's response ring. -/
def Tray.respEntry (y : Tray) (i : Nat) : List Byte := (List.range 32).map fun k => mapGet ring0 y.respRing (32 * (i % 256) + k)

/-- Store bytes into a ring. -/
def ringWrite (m : List Host.Cell) : Nat → List Byte → List Host.Cell
  | _, [] => m
  | a, b :: bs => ringWrite (mapSet ring0 m a b) (a + 1) bs

/-- The entry that carries a response at index n (R382, R383). -/
def respBytes (n : Nat) (r : Resp) : List Byte :=
  leBytes 2 r.tag ++ leBytes 2 r.opcode ++ leBytes 1 r.status ++ leBytes 1 ((n / 256 + 1) % 2 + 2 * b2n r.final) ++
  leBytes 2 r.reason ++ padTo 24 r.payload

/-! ### Doorbells (R377) -/

/-- n commands of Tray t wait to be taken: behind the doorbells of earlier clocks, and among those of this clock in the order of the Tray
numbers (R391, log entry 153). -/
def State.enqueue (s : State) (t n : Nat) : State :=
  let first := s.dk.doorbells.takeWhile fun d => decide (d.1 ≠ s.now ∨ d.2.1 ≤ t)
  { s with dk := { s.dk with doorbells := first ++ (s.now, t, n) :: s.dk.doorbells.drop first.length } }

/-- A doorbell for Tray t with the value of DB_t (R377): RESP_HEAD, then CMD_TAIL; an invalid step discards all of it. -/
def State.doorbell (s : State) (t : Fin 8) (v : Word) : State :=
  let y := s.tray t
  let newHead := fld v 31 16
  let newTail := fld v 15 0
  let h := idxSub newHead y.respHead
  let back := y.finals y.respHead h
  let n := idxSub newTail y.cmdTail
  if h ≤ idxSub y.respTail y.respHead ∧ n ≤ 256 - (s.traySlots t - back) then
    let s := ((s.giveBack (10 + t.val) back).issue (10 + t.val) n).setTray t
      { y with respHead := newHead, cmdTail := newTail
               fullRaised := y.fullRaised && decide (newHead ≠ y.respTail) }
    if n = 0 then s else s.enqueue t.val n
  else (s.setTray t { y with dbErr := true }).raise 32 (BitVec.ofNat 32 t.val) v

/-! ### Taking commands (R381, R391, R392) -/

/-- COUNT of PARAM_GET and PARAM_SET lies in its range and LEN covers it (R395, R396). -/
def countOk (c : Cmd) : Bool :=
  let n := leAt c.entry 16 1
  if c.opcode = 0x0101 then decide (1 ≤ n ∧ n ≤ 6 ∧ 2 + 2 * n ≤ c.len)
  else if c.opcode = 0x0102 then decide (1 ≤ n ∧ n ≤ 5 ∧ 8 + 8 * n ≤ c.len)
  else true

/-- Checks 1 to 6 of R381: the reason of the first that fails, 0 when all pass. -/
def State.takeCheck (s : State) (c : Cmd) : Nat :=
  match findCmd c.opcode with
  | none => 0x0101
  | some r =>
    if c.cls ≠ r.cls then 0x0103
    else if c.len < r.lenMin ∨ r.lenMax < c.len ∨ !countOk c then 0x0102
    else if 8 ≤ leAt c.entry 4 1 ∨ (c.queue ≠ 0 ∧ !(c.opcode = 0x0501 ∧ c.queue = 1)) ∨ (c.target ≠ 0 ∧ r.cls ≠ 1) then 0x010D
    else if r.t0 ∧ c.tray ≠ 0 then 0x0104
    else if !r.allowed (modeCode s.pmu.mode) then 0x0109
    else 0

/-- A refused command was never started: its one response. -/
def State.refuseTaken (s : State) (c : Cmd) (reason : Nat) : State := s.pushResp c 2 true reason []

/-- After a warm restart the ABORTED responses have been written (R390). -/
def State.abortsWritten (s : State) : Bool := s.trays.toList.all fun y => y.held.all fun r => r.status != 4

/-- COMMAND_TAKEN (R376, R381, R390, R391): the next entry of the oldest doorbell, from the clock after its arrival on. -/
def execCommandTaken (s : State) : Out :=
  .next (
    match s.dk.doorbells with
    | [] => s
    | (at_, t, n) :: rest =>
      if s.fw && s.abortsWritten && decide (at_ < s.now) then
        let t : Fin 8 := Fin.ofNat 8 t
        let y := s.tray t
        let c : Cmd := ⟨t, y.cmdEntry y.cmdHead, y.cmdHead⟩
        let s := s.setTray t { y with cmdHead := (y.cmdHead + 1) % 65536 }
        let s := { s with dk := { s.dk with doorbells := if n ≤ 1 then rest else (at_, t.val, n - 1) :: rest } }
        let r := s.takeCheck c
        if r = 0 then { s with dk := { s.dk with taken := s.dk.taken ++ [c] } } else s.refuseTaken c r
      else s)

/-! ### Responses (R383, R384) -/

/-- A warm restart begins (R389, R553, R555); while one runs nothing starts another. -/
def State.restartBegin (s : State) (cause : Nat) : State :=
  if s.dk.running && s.dk.restarting.isNone then { s with dk := { s.dk with restarting := some cause } } else s

/-- RESPONSE_WRITE (R383, R384): the oldest held response of Tray t goes into a free entry. Behind the DONE of an FW_UPDATE the warm
restart starts (R555). -/
def execResponseWrite (t : Fin 8) (s : State) : Out :=
  .next (
    let y := s.tray t
    match y.held with
    | [] => s
    | r :: rest =>
      if s.fw && decide (idxSub y.respTail y.respHead < 256) then
        let s := s.setTray t { y with held := rest, respTail := (y.respTail + 1) % 65536
                                      respRing := ringWrite y.respRing (32 * (y.respTail % 256)) (respBytes y.respTail r) }
        if r.opcode == 0x0006 && r.status == 0 then s.restartBegin 0 else s
      else s)

/-- RESP_RING_FULL (R384): a response has waited 100 µs for an entry. -/
def execRespRingFull (t : Fin 8) (s : State) : Out :=
  .next (
    let y := s.tray t
    match y.held with
    | [] => s
    | r :: _ =>
      if s.fw && !y.fullRaised && decide (256 ≤ idxSub y.respTail y.respHead) && decide (r.at_ + 25000 ≤ s.now) then
        (s.setTray t { y with fullRaised := true }).raiseN 33 0 0
      else s)

/-! ### Heartbeat and watchdog (R389) -/

/-- HEARTBEAT (R389): every 100 µs while the firmware runs. -/
def execHeartbeat (s : State) : Out :=
  .next (if s.fw && decide (s.dk.lastBeat + 25000 ≤ s.now) then
    let s := s.setReg idHeartbeat (s.reg idHeartbeat + 1)
    { s with dk := { s.dk with lastBeat := s.now } }
  else s)

/-- DK.WDOG.TIMEOUT in units of 4 ns: 1 ms is 250,000. -/
def State.wdogTime (s : State) : Nat := 250000 * max 1 (s.rf idWdog 15 0)

/-- FW_STALL (R389): the heartbeat has not changed for TIMEOUT. The firmware rests in REST (R493), where its cores stop. -/
def execFwStall (s : State) : Out :=
  .next (if s.up dCtrl && s.dk.running && s.dk.restarting.isNone && (s.pmu.sleep == .awake || s.pmu.sleep == .entering)
      && decide (s.dk.lastBeat + s.wdogTime ≤ s.now) then
    let s := { s with dk := { s.dk with lastBeat := s.now } }
    let s := s.raiseN 34 0 0
    if bit (s.reg idWdog) 31 then s.restartBegin 1 else s
  else s)

/-- DK_RESTART_WRITE (R389). -/
def execDkRestartWrite (v : Word) (s : State) : Out :=
  .next (if s.up dCtrl && v == 0x0000A55A#32 then s.restartBegin 0 else s)

/-! ### Basic commands -/

/-- NOP (R403). -/
def execNop (c : Cmd) (s : State) : Out := .next (if s.mayStart c 0x0001 then s.done c [] else s)

/-- A byte of the staged or running image in SRAM (R549). -/
def State.imgByte (s : State) (i : Nat) : Byte := mapGet ring0 s.dk.image i

def State.imgBytes (s : State) (a n : Nat) : List Byte := (List.range n).map fun i => s.imgByte (a + i)

/-- IDENTIFY (R575). -/
def execIdentify (c : Cmd) (s : State) : Out :=
  .next (if s.mayStart c 0x0002 then
    s.done c (leBytes 2 0x4E59 ++ leBytes 2 0x9720 ++ [Config.stepping, Config.icsMinor, Config.icsMajor] ++ leBytes 1 c.tray.val
      ++ leBytes 4 Config.fwVersion.toNat ++ leBytes 4 Config.fwBuild.toNat ++ leBytes 1 s.dk.owner.val ++ [s.imgByte 8])
  else s)

/-- TRAY_CONFIG (R394). -/
def execTrayConfig (c : Cmd) (s : State) : Out :=
  .next (if s.mayStart c 0x0005 then
    let n := c.arg 0 1
    if h : n < 8 then
      if s.dk.owner.val = n then s.done c []
      else ({ s with dk := { s.dk with owner := ⟨n, h⟩ }, regs := { s.regs with staged := [] } }).done c []
    else s.refuse c 0x0108
  else s)

/-- STAGE_CLEAR (R394, R403). -/
def execStageClear (c : Cmd) (s : State) : Out :=
  .next (if s.mayStart c 0x0203 then
    if c.tray = s.dk.owner then ({ s with regs := { s.regs with staged := [] } }).done c [] else s.refuse c 0x0105
  else s)

/-- TICK_WAIT (R400): the interim response now, the final one at the target tick. -/
def execTickWait (c : Cmd) (s : State) : Out :=
  .next (if s.mayStart c 0x0008 then
    let next := if s.expo.ticked then s.expo.tick + 1 else 0
    if c.target = wildTarget then
      let s := (s.startCmd c).pushResp c 1 false 0 []
      { s with dk := { s.dk with tickWaits := s.dk.tickWaits ++ [⟨c, next⟩] } }
    else if c.target < next then s.refuse c 0x010B
    else if s.expo.tick + 65536 < c.target then s.refuse c 0x0209
    else
      let s := (s.startCmd c).pushResp c 1 false 0 []
      { s with dk := { s.dk with tickWaits := s.dk.tickWaits ++ [⟨c, c.target⟩] } }
  else s)

/-- The tick of index k arrives: TICK_WAITs whose target it reaches complete (R400). -/
def State.tickWaitDone (s : State) (k : Nat) : State :=
  let due := s.dk.tickWaits.filter fun w => decide (w.target ≤ k)
  let s := { s with dk := { s.dk with tickWaits := s.dk.tickWaits.filter fun w => decide (k < w.target) } }
  due.foldl (fun s w => s.done w.cmd (leBytes 8 k)) s

/-- Every pending TICK_WAIT ends FAILED with reason MODE (R487). -/
def State.tickWaitFail (s : State) : State :=
  let l := s.dk.tickWaits
  l.foldl (fun s w => s.fail w.cmd 0x020E) { s with dk := { s.dk with tickWaits := [] } }

/-- NOTICE record bytes (R401), for a read of the notice table. -/
def noticeBytes (kind : Nat) (n : Notice) : List Byte :=
  leBytes 4 n.seq ++ leBytes 2 kind ++ leBytes 2 0 ++ leBytes 8 n.tick ++ padTo 16 n.payload

/-- The bytes of Tray t at an offset (R375). -/
def State.trayByte (s : State) (t : Fin 8) (off : Nat) : Byte :=
  let y := s.tray t
  if off < 0x4000 then mapGet ring0 y.cmdRing off
  else if off < 0x6000 then mapGet ring0 y.respRing (off - 0x4000)
  else if off < 0x600C then
    byteAt (leBytes 4 (s.image (if off < 0x6004 then 0x0400 else if off < 0x6008 then 0x0401 else 0x0402) t.val 0 false).toNat) (off % 4)
  else if 0x6100 ≤ off ∧ off < 0x6300 then
    let k := (off - 0x6100) / 32
    if h : k < 4 then byteAt (noticeBytes k s.dk.notices[k]) (off % 32)
    else if off % 32 = 4 then BitVec.ofNat 8 k else 0
  else 0

end Sys2Proof.Machine
end

