-- ==== Sys2Proof/Machine/Registers.lean ====
section
/-!
DEFINITION. Writing a register by its access code and class (R16 to R19, R53 to R55, R409, R413, R572), and the parameter commands
(R395 to R397, R410 to R412, R528).
-/
namespace Sys2Proof.Machine

/-! ### The write of one register -/

/-- Is the owning block of a register's class S fields idle (R53)? -/
def State.ownerIdle (s : State) (f : Found) : Bool :=
  match f.d.owner with
  | .none => true
  | .tickGen => !s.run
  | .raster => !s.rasterRuns
  | .panel => s.panel.st == .off
  | .timeUnit => !s.run && (List.range 4).all (fun n => !s.toArmed n) && !bit (s.reg idPtpCfg) 31
  | .channel => !s.toArmed (f.inst.headD 0)
  | .safelight => s.pmu.mode != .safelight

/-- The masks of the fields of a class that a write would change. -/
def RegDef.changedMask (d : RegDef) (c : Cls) (old v : Word) : Word :=
  d.fields.foldl (fun w f =>
    if f.cls = c ∧ f.acc = .rw ∧ fld old f.hi f.lo ≠ fld v f.hi f.lo then w ||| fldMask f.hi f.lo else w) 0

/-- Registers in which a chapter gives a value outside the range the effect of another value, for every kind of write (R572): "0 acts
as 1" of DK.WDOG.TIMEOUT (R389) and of DMC.SCRUB.PERIOD (R331). -/
def actsAs (base : Nat) : Bool := base == idWdog || base == idScrub

/-- The masks of the RW fields that a value would leave outside their range (R572). -/
def RegDef.badMask (d : RegDef) (v : Word) : Word :=
  if actsAs d.base then 0 else d.fields.foldl (fun w f =>
    if f.acc = .rw ∧ !f.takes (fld v f.hi f.lo) then w ||| fldMask f.hi f.lo else w) 0

/-- Writes that a chapter gives no effect and E4, by a relation of fields: GATE.TIMING with GCK_OFF ≤ GCK_ON (R279), WALL_MEMBER
without UNIFIED (R426). -/
def relMask (base : Nat) (v : Word) : Word :=
  if base = idGate ∧ fld v 31 16 ≤ fld v 15 0 then 0xFFFFFFFF
  else if base = idTimeCfg ∧ bit v 1 ∧ !bit v 0 then 3
  else 0

/-- Registers whose chapter states the effect of a value outside the range, for every kind of write (R572): the effect of another value,
or no effect and E4. -/
def statedRange (base : Nat) : Bool :=
  actsAs base || base == idRasterSize || base == idBlLead || base == idDmcCtrl || base == idGate || base == idTimeCfg

/-- The slots with a plate in force (R92). -/
def State.inForceMask (s : State) : BitVec 8 :=
  BitVec.ofNat 8 (maskOf ((List.range 8).filter fun p => (s.plates[(Fin.ofNat 8 p : Fin 8)]).inForce))

/-- The slots whose staged ACTION is KEEP by default (R92): fixed when the first write opens a staging set, and those with a plate in
force while none is open. -/
def State.keepMask (s : State) : BitVec 8 := if s.regs.staged = [] then s.inForceMask else s.expo.stageKeep

/-- The class T bits of a register that a write sets. -/
def tMask (id : Nat) : Word :=
  match findReg id with
  | none => 0
  | some f => f.d.clsMask .t &&& f.d.accMask fun a => a = .rw

/-- The staged word of a register: its staged T bits over the word in force (R54, R410); the ACTION of PLATE_p.CTRL stands at its default
until it is written (R92). -/
def State.stagedWord (s : State) (id : Nat) : Word :=
  match mapFind s.regs.staged id with
  | some w => (s.reg id &&& ~~~ tMask id) ||| (w &&& tMask id)
  | none =>
    if idPlate 0 0 ≤ id ∧ id < idPlate 8 0 ∧ id % 32 = 0 then
      setFld (s.reg id) 1 0 (b2n (s.keepMask.getLsbD ((id - idPlate 0 0) / 32)))
    else s.reg id

/-- Enter T bits into the staging set (R54, R92). -/
def State.stage (s : State) (id : Nat) (v mask : Word) : State :=
  let keep := s.keepMask
  let w := (s.stagedWord id &&& ~~~ mask) ||| (v &&& mask)
  { s with regs := { s.regs with staged := mapPut s.regs.staged id w }, expo := { s.expo with stageKeep := keep } }

/-- What a write does beside its bits: the register's own effects. `old` is the word before the write. -/
def State.writeEffect (s : State) (base id i : Nat) (old v : Word) : State :=
  if base = idRestart then (if v = 0x0000A55A#32 then s.restartBegin 0 else s)
  else if base = idTickCtrl then
    s.hostRun (bit v 0)
  else if base = idTimeCfg then (if bit (s.reg id) 0 != bit old 0 then s.timeReload else s)
  else if base = 0x6420 then
    (if bit v 31 && !bit old 31 then s.toArm i else if !bit v 31 then s.setRf id 31 31 0 else s)
  else if base = idRfcCtrl then
    let s := if bit v 2 then s.rfcTrigger else s
    let s := if bit v 0 != bit old 0 then s.rfcTrigger else s
    if bit old 1 && !bit v 1 then s.rfcKept else s
  else if base = idRasterSize then
    (if fld old 15 0 != fld (s.reg id) 15 0 then
      { s with easels := Vector.ofFn fun q => { s.easels[q] with pfsValid := false, pfsWhole := false } } else s)
  else s

/-- The bits that a write of a register sets at once: RUN and ARM are set by their effects (R48, R440). -/
def deferred (base : Nat) : Word := if base = idTickCtrl then 1 else if base = 0x6420 then 0x80000000 else 0

/-- A word with each fixed-point field that is narrower than its container in the container's form (R12): the coefficients of
CORR.MATRIX_k are signed 2.13 in [14:0] of their 16 bits, so bit 15 of a write is ignored and reads as bit 14. -/
def narrowed (base : Nat) (v : Word) : Word :=
  if idMatrix 0 ≤ base ∧ base ≤ idMatrix 4 then
    setFld (setFld v 31 31 (fld v 30 30)) 15 15 (fld v 14 14)
  else v

/-- Write a held register (R12, R16, R53 to R55, R572): `hwSet` are the W1C bits that hardware sets in the same clock. With `dflt` the
value is the Reset column, which is no refused value (log entry 45). -/
def State.writeHeld (s : State) (f : Found) (v hwSet : Word) (dflt : Bool) : State :=
  let id := f.lowId
  let old := s.reg id
  let v := narrowed f.d.base v
  let bad := if dflt then 0 else f.d.badMask v ||| relMask f.d.base v
  if bad ≠ 0 then s.settingRefused id bad
  else
    let sBad := if s.ownerIdle f then 0 else f.d.changedMask .s old v
    let s := if sBad = 0 then s else s.settingRefused id sBad
    let tMask := f.d.clsMask .t &&& f.d.accMask fun a => a = .rw
    let s := if tMask = 0 then s else s.stage id v tMask
    let rw := (f.d.accMask fun a => a = .rw) &&& ~~~ tMask &&& ~~~ sBad &&& ~~~ deferred f.d.base
    let w1c := f.d.accMask fun a => a = .w1c
    let new := ((old &&& ~~~ rw) ||| (v &&& rw)) &&& ~~~ (v &&& w1c &&& ~~~ hwSet) ||| (hwSet &&& w1c)
    let s := s.setReg id new
    s.writeEffect f.d.base id (f.inst.headD 0) old v

/-- Write the register found at an ID. -/
def State.writeReg (s : State) (f : Found) (v hwSet : Word) (dflt : Bool := false) : State :=
  let i := f.inst.headD 0
  if f.d.base = 0x0402 then
    let t : Fin 8 := Fin.ofNat 8 i
    if bit v 16 && !bit hwSet 16 then s.setTray t { s.tray t with dbErr := false } else s
  else if f.d.base = 0x500A then
    { s with panel := { s.panel with cause := s.panel.cause &&& ~~~ BitVec.ofNat 6 (fld (v &&& ~~~ hwSet) 21 16) } }
  else if f.d.base = 0x7400 then s.evStatusWrite i v hwSet
  else if f.d.base = 0x7401 then s.evEnableGroup i v
  else if f.d.base = 0x7500 then s.evCfg i v
  else if f.d.base = idProtect ∧ bit (s.reg idProtect) 2 then s
  else if f.d.kind = .held ∧ !f.upper then s.writeHeld f v hwSet dflt
  else s

/-! ### Checks of PARAM_SET (R396) -/

def RegDef.writable (d : RegDef) : Bool := d.accMask (fun a => a = .rw ∨ a = .w1c ∨ a = .wo) != 0

/-- The first failing check of one PARAM_SET entry from Tray t, 0 when all pass; with `dflt` the value is the Reset column (R412). -/
def State.entryCheck (s : State) (t : Fin 8) (id : Nat) (v : Word) (dflt : Bool := false) : Nat :=
  if id / 1024 = 0x3F ∧ s.pmu.mode ≠ .service then 0x0109
  else match findReg id with
  | none => 0x0106
  | some f =>
    if f.upper ∨ !f.d.writable then 0x0107
    else if !dflt ∧ !f.d.inRange v ∧ !statedRange f.d.base then 0x0108
    else if f.d.clsMask .t ≠ 0 ∧ t ≠ s.dk.owner then 0x0105
    else if !s.ownerIdle f ∧ f.d.changedMask .s (s.reg f.lowId) v ≠ 0 then 0x020F
    else 0

/-- E4 of an entry refused as SETTING_BUSY (R396, R53). -/
def State.busyEvent (s : State) (id : Nat) (v : Word) : State :=
  match findReg id with
  | none => s
  | some f => s.settingRefused f.lowId (f.d.changedMask .s (s.reg f.lowId) v)

/-- Apply checked entries in order. -/
def State.applyEntries (s : State) (l : List (Nat × Word)) (dflt : Bool := false) : State :=
  l.foldl (fun s e => match findReg e.1 with | none => s | some f => s.writeReg f e.2 0 dflt) s

/-- The index and reason of the first failing entry. -/
def State.firstBad (s : State) (t : Fin 8) (l : List (Nat × Word)) (dflt : Bool := false) : Option (Nat × Nat) :=
  (l.zipIdx.find? fun e => s.entryCheck t e.1.1 e.1.2 dflt != 0).map fun e => (e.2, s.entryCheck t e.1.1 e.1.2 dflt)

/-! ### Parameter commands -/

/-- The entries of a PARAM_SET payload. -/
def setEntries (c : Cmd) : List (Nat × Word) :=
  (List.range (c.arg 0 1)).map fun n => (c.arg (8 + 8 * n) 2, BitVec.ofNat 32 (c.arg (12 + 8 * n) 4))

/-- PARAM_SET (R393, R396): every entry is checked before any is applied. -/
def execParamSet (c : Cmd) (s : State) : Out :=
  .next (if s.mayStart c 0x0102 then
    match s.firstBad c.tray (setEntries c) with
    | none => (s.applyEntries (setEntries c)).done c []
    | some (i, reason) =>
      let e := (setEntries c).getD i (0, 0)
      let s := if reason = 0x020F then s.busyEvent e.1 e.2 else s
      s.answer c 2 reason (leBytes 4 i)
  else s)

/-- A word with STAGED = 1 (R410): the class T fields of a held register as staged, every other field in force. -/
def State.getStaged (s : State) (f : Found) (pair : Bool) : Word :=
  let m := f.d.clsMask .t
  if f.upper ∨ f.d.kind ≠ .held then s.readWord f pair else (s.readWord f pair &&& ~~~ m) ||| (s.stagedWord f.lowId &&& m)

/-- PARAM_GET (R395, R410): the pair of a 64-bit value is consistent when one command reads both words. -/
def execParamGet (c : Cmd) (s : State) : Out :=
  .next (if s.mayStart c 0x0101 then
    let ids := (List.range (c.arg 0 1)).map fun n => c.arg (2 + 2 * n) 2
    if ids.any fun id => id / 1024 == 0x3F && s.pmu.mode != .service then s.refuse c 0x0109
    else if ids.any fun id => (findReg id).isNone then s.refuse c 0x0106
    else
      let staged := (c.arg 0x0E 1).testBit 0
      let word (id : Nat) : Word :=
        match findReg id with
        | none => 0
        | some f => (if staged then s.getStaged f else s.readWord f) (ids.contains f.lowId)
      let pay := ids.flatMap fun id => leBytes 4 (word id).toNat
      (ids.foldl (fun s id => match findReg id with | none => s | some f => s.capture f) s).done c pay
  else s)

/-- A number below 100 in decimal digits. -/
def decDigits (n : Nat) : List Byte :=
  if n < 10 then [BitVec.ofNat 8 (48 + n)]
  else if n < 100 then [BitVec.ofNat 8 (48 + n / 10), BitVec.ofNat 8 (48 + n % 10)]
  else [BitVec.ofNat 8 (48 + n / 100), BitVec.ofNat 8 (48 + n / 10 % 10), BitVec.ofNat 8 (48 + n % 10)]

def hexDigit (n : Nat) : Byte := BitVec.ofNat 8 (if n < 10 then 48 + n else 55 + n)

def asciiOf (s : String) : List Byte := s.toList.map fun ch => BitVec.ofNat 8 ch.toNat

/-- NAME of PARAM_INFO (R411). -/
def paramName (id : Nat) (f : Found) : List Byte :=
  let num := match f.d.dig with
    | none => []
    | some j => if f.d.letter then [BitVec.ofNat 8 (65 + f.inst.getD j 0)] else decDigits
        (if f.d.base / 1024 = 0x1F then 192 * f.inst.getD 0 0 + f.inst.getD 1 0 else f.inst.getD j 0)
  let leaf := asciiOf f.d.leaf
  let half := match f.d.kind with
    | .live => asciiOf (if f.upper then "_HI" else "_LO")
    | .image64 => asciiOf (if f.upper then "HI" else "LO")
    | .held | .image | .count | .snap64 => []
  let name := leaf ++ num ++ asciiOf f.d.tail ++ half
  padTo 12 ([hexDigit (id / 4096 % 16), hexDigit (id / 256 % 16), hexDigit (id / 16 % 16), hexDigit (id % 16), 46] ++ name.take 7)

/-- MIN and MAX of PARAM_INFO (R411): those of the one ranged field, or of a register of one field; else all values. -/
def paramRange (d : RegDef) : Nat × Nat :=
  match d.fields.filter (fun f => f.min ≠ 0 ∨ f.max ≠ 2 ^ (f.hi - f.lo + 1) - 1), d.fields with
  | [f], _ => (f.min, f.max)
  | [], [f] => (f.min, f.max)
  | _, _ => (0, 0xFFFFFFFF)

/-- PARAM_INFO (R397, R411): the refusal of an unknown ID still carries NEXT. -/
def execParamInfo (c : Cmd) (s : State) : Out :=
  .next (if s.mayStart c 0x0103 then
    let id := c.arg 0 2
    let next := leBytes 2 (if 0x8800 ≤ id then 0xFFFF else nextId (0x8800 - id) id)
    if id / 1024 = 0x3F ∧ s.pmu.mode ≠ .service then s.answer c 2 0x0109 next
    else match findReg id with
    | none => s.answer c 2 0x0106 next
    | some f =>
      let r := paramRange f.d
      s.done c (next ++ leBytes 1 (f.d.infoAcc + 8 * f.d.infoClass + 32 * b2n f.isUpper) ++ leBytes 1 f.d.width
        ++ leBytes 4 r.1 ++ leBytes 4 r.2 ++ paramName id f)
  else s)

/-! ### Whole groups -/

/-- Every ID of a register definition's lower words. -/
def RegDef.ids (d : RegDef) : List Nat :=
  d.dims.foldl (fun l e => l.flatMap fun b => (List.range e.1).map fun i => b + e.2 * i) [d.base]

/-- The registers of the selected groups that have an RW field, with their IDs, in ascending ID order within a register. -/
def groupRw (mask : Nat) : List (Nat × RegDef) :=
  (List.range 0x22).flatMap fun g =>
    if mask.testBit g then
      (groupDefs g).flatMap fun d =>
        if (d.accMask fun a => a = .rw) = 0 then [] else (d.ids.filter fun id => id / 1024 == g).map fun id => (id, d)
    else []

/-- Does a group mask select a reserved group (R407, R412)? -/
def reservedGroup (mask : Nat) : Bool := (List.range 64).any fun g => mask.testBit g && decide (0x22 ≤ g ∧ g ≠ 0x3F)

/-- PARAM_DEFAULTS (R412). -/
def execParamDefaults (c : Cmd) (s : State) : Out :=
  .next (if s.mayStart c 0x0105 then
    if reservedGroup (c.arg 0 8) then s.refuse c 0x0108
    else
      let l := (groupRw (c.arg 0 8)).map fun e => (e.1, resetWord e.1 &&& e.2.accMask fun a => a = .rw)
      match s.firstBad c.tray l true with
      | none => (s.applyEntries l true).done c []
      | some (i, reason) =>
        let e := l.getD i (0, 0)
        (if reason = 0x020F then s.busyEvent e.1 e.2 else s).answer c 2 reason []
  else s)

/-- The entries that PARAM_SAVE writes (R528): the RW fields in force. -/
def State.saveEntries (s : State) (mask : Nat) : List (Nat × Word) :=
  (groupRw mask).map fun e => (e.1, s.reg e.1 &&& e.2.accMask fun a => a = .rw)

/-- A saved parameter bank (R521, R524): its first data page, and its header page. -/
def bankBase (b : Nat) : Nat := if b = 0 then 2048 else 2304
def bankHeader (b : Nat) : Nat := bankBase b + 255

/-- The bytes of n pages from a first one. -/
def State.nvmPages (s : State) (p n : Nat) : List Byte := (List.range n).flatMap fun i => s.nvmPage (p + i)

/-- SEQ of a copy once the writes that wait are done: its pages all VALID and the CRC of the data right (R524). -/
def State.copySeq (s : State) (data n header : Nat) : Option Nat :=
  match s.nvmAhead header with
  | none => none
  | some h =>
    let l := (List.range n).map fun i => s.nvmAhead (data + i)
    if l.all Option.isSome && leAt h 4 4 == (crc32 (l.flatMap fun b => b.getD [])).toNat then some (leAt h 0 4) else none

/-- Of two copies, which is in force (R524): the one with the higher SEQ; 0 or 1. -/
def inForce (a b : Option Nat) : Option Nat :=
  match a, b with
  | some x, some y => some (if x < y then 1 else 0)
  | some _, none => some 0
  | none, some _ => some 1
  | none, none => none

/-- The copy to write next and the SEQ it takes: the older one (R524). -/
def olderCopy (a b : Option Nat) : Nat × Nat :=
  match inForce a b with
  | some 0 => (1, a.getD 0 + 1)
  | some _ => (0, b.getD 0 + 1)
  | none => (0, 1)

/-- Write a copy: data pages first and the header last, with SEQ and the CRC-32 over the data pages (R524). -/
def State.writeCopy (s : State) (data n header seq : Nat) (bytes : List Byte) (use : NvmUse) : State :=
  let bytes := padTo (64 * n) bytes
  let s := (List.range n).foldl (fun s i => s.nvmRecord (data + i) ((bytes.drop (64 * i)).take 64)) s
  let head := leBytes 4 seq ++ leBytes 4 (crc32 bytes).toNat
  if s.nvmProtected header then s.addCtr idProtRefused 1 else s.nvmSubmit ⟨header, padTo 64 head, 0, use⟩

def State.bankSeq (s : State) (b : Nat) : Option Nat := s.copySeq (bankBase b) 255 (bankHeader b)

/-- PARAM_SAVE (R528): the response comes when the header page has been written. -/
def execParamSave (c : Cmd) (s : State) : Out :=
  .next (if s.mayStart c 0x0104 then
    if reservedGroup (c.arg 0 8) then s.refuse c 0x0108
    else
      let l := s.saveEntries (c.arg 0 8)
      if 2040 < l.length then s.refuse c 0x0A04
      else
        let w := olderCopy (s.bankSeq 0) (s.bankSeq 1)
        let bytes := l.flatMap fun e => leBytes 2 e.1 ++ [0, 0] ++ leBytes 4 e.2.toNat
        let s' := s.writeCopy (bankBase w.1) 255 (bankHeader w.1) w.2 bytes (.save c)
        if s.nvmProtected (bankHeader w.1) then s'.fail c 0x0A01 else s'.startCmd c
  else s)

/-! ### Direct register accesses -/

/-- REGISTER_WRITE (R16, R413): a write to a register outside the Trays. -/
def execRegisterWrite (id : Nat) (v hwSet : Word) (s : State) : Out :=
  .next (match findReg id with
    | none => s
    | some f => if s.up dCtrl then s.writeReg f v hwSet else s)

/-- COUNTER_LO_READ (R20). -/
def execCounterLoRead (id : Nat) (s : State) : Out :=
  .next (match findReg id with
    | none => s
    | some f => s.capture f)

end Sys2Proof.Machine
end

