-- ==== Sys2Proof/Machine/Admit.lean ====
section
/-!
DEFINITION. What a set would put in force, the rows of R56, and admission (R71 to R81, R93, R109).
-/
namespace Sys2Proof.Machine

/-! ### Values that a set would put in force (R56) -/

/-- A register with staged T bits laid over it. -/
def State.overlay (s : State) (m : List (Nat × Word)) (id : Nat) : Word :=
  match mapFind m id with
  | some w => (s.reg id &&& ~~~ tMask id) ||| (w &&& tMask id)
  | none => s.reg id

/-- Lay one list of staged words over another. -/
def mergeStaged (a b : List (Nat × Word)) : List (Nat × Word) := b.foldl (fun m e => mapPut m e.1 e.2) a

/-- The staged words of all pending sets, a later one over an earlier one. -/
def State.pendFields (s : State) : List (Nat × Word) := s.expo.pend.foldl (fun m e => mergeStaged m e.fields) []

/-- Does a staging set contain an exposure (R92)? -/
def hasExposure (m : List (Nat × Word)) : Bool :=
  m.any fun e => e.1 == idBlend || decide (idPlate 0 0 ≤ e.1 ∧ e.1 < idPlate 8 0)

/-- The buffer that is front in slot p once the pending sets apply, none where the slot has no plate then (R109). -/
def State.future (s : State) (p : Fin 8) : Option (Fin 2) :=
  s.expo.pend.foldl (fun b e =>
    if !e.hasExpo then b
    else match e.actions.getD p.val 0 with
      | 2 => some (s.plate p).backIx
      | 1 => b
      | _ => none) (if (s.plate p).inForce then some (s.plate p).front else none)

/-- A set under examination: its registers, what they were without it, its actions by slot, whether it contains an exposure. -/
structure Trial where
  eff : List (Nat × Word)
  base : List (Nat × Word)
  expo : Bool
  actions : List Nat
deriving DecidableEq, Repr

/-- The staging set as a trial. -/
def State.trial (s : State) : Trial :=
  let base := s.pendFields
  { eff := mergeStaged base s.regs.staged
    base := base
    expo := hasExposure s.regs.staged
    actions := (List.range 8).map fun p => fld (s.stagedWord (idPlate p 0)) 1 0 }

def State.trialReg (s : State) (t : Trial) (id : Nat) : Word := s.overlay t.eff id
def State.baseReg (s : State) (t : Trial) (id : Nat) : Word := s.overlay t.base id

/-- N_LOG2 that a trial puts in force, and before it. -/
def State.trialN (s : State) (t : Trial) : Nat := fld (s.trialReg t idSteer) 1 0
def State.baseN (s : State) (t : Trial) : Nat := fld (s.baseReg t idSteer) 1 0

/-! ### The rows of R56 -/

/-- STEER: N_LOG2 = 3 never (R44), and at least N steer states (R286). -/
def steerOk (reg : Nat → Word) : Bool :=
  let n := fld (reg idSteer) 1 0
  n != 3 && decide (2 ^ n ≤ fld (reg idBlCtrl) 4 2)

/-- The list of EXPO.BLEND, front first. -/
def blendList (w : Word) : List Nat := (List.range (fld w 31 28)).map fun k => fld w (3 * k + 6) (3 * k + 4)

/-- BLEND_ORDER: a programmed order is a permutation of exactly the exposure's plates. -/
def blendOk (w : Word) (slots : List Nat) : Bool :=
  if bit w 0 then
    let l := (blendList w).take 8
    decide (fld w 31 28 ≤ 8) && l.length == slots.length && slots.all fun p => l.contains p
  else true

/-- Lanes and rate of a port in force, none where the code is reserved. -/
def linkLanes (w : Word) : Option Nat := match fld w 1 0 with | 0 => some 4 | 1 => some 8 | 2 => some 12 | _ => none
def linkGbps (w : Word) : Option Nat := match fld w 3 2 with | 0 => some 16 | 1 => some 24 | 2 => some 32 | _ => none
def dscBpp (w : Word) : Option Nat := match fld w 1 0 with | 0 => some 8 | 1 => some 10 | 2 => some 12 | _ => none

/-- LINK_RATE of one quadrant (R267). -/
def linkOk (reg : Nat → Word) (q : Nat) : Bool :=
  match linkLanes (reg (idPlCtrl q)), linkGbps (reg (idPlCtrl q)), dscBpp (reg idDscCtrl) with
  | some l, some g, some bpp =>
    let size := reg idRasterSize
    let lt := 16 * fld size 15 6 + fld size 26 16
    let per := (nominalCycles 1 (reg idRateNum).toNat (reg idRateDen).toNat - fld (reg idRasterGuard) 15 0) / lt
    let slots := per * g * 10 / 792
    decide (1 + fld size 5 0 * (2 + 8 * bpp) ≤ l * (slots - 2))
  | _, _, _ => false

/-- LOUPE_RECT of one rectangle (R252, R253). -/
def rectOk (reg : Nat → Word) (q n : Nat) : Bool :=
  let c := reg (idLoupe q n 2)
  let x := reg (idLoupe q n 0)
  let y := reg (idLoupe q n 1)
  let tap := fld c 2 1
  !bit c 0 || (tap != 3 && decide (fld x 15 0 < fld x 31 16 ∧ fld x 31 16 ≤ 512 * fld (reg idRasterSize) 5 0) &&
    decide (fld y 15 0 < fld y 31 16 ∧ fld y 31 16 ≤ 16 * fld (reg idRasterSize) 15 6) &&
    (tap != 2 || (fld x 15 0 % 512 == 0 && fld x 31 16 % 512 == 0)))

/-- The reason of the first row of R56 that fails, 0x0200 when none does. -/
def rowsReason (reg : Nat → Word) (expo : Bool) (slots : List Nat) : Nat :=
  if !steerOk reg then 0x0212
  else if expo && !blendOk (reg idBlend) slots then 0x0211
  else if !((List.range 4).all fun q => linkOk reg q) then 0x0213
  else if !((List.range 4).all fun q => (List.range 16).all fun n => rectOk reg q n) then 0x0214
  else 0x0200

/-! ### Placement (R93) -/

def placementOk (reg : Nat → Word) (p : Nat) (g : Geom) : Bool :=
  let pitch (w : Word) : Bool := decide (4096 ≤ w.toNat ∧ w.toNat ≤ 268435456)
  let rot := reg (idPlate p 6)
  let c := signed 16 (fld rot 15 0)
  let n := signed 16 (fld rot 31 16)
  let d0 := reg (idPlate p 8)
  let st := reg (idPlate p 9)
  let view (lo hi k : Nat) : Bool :=
    let e := signed 16 (fld d0 hi lo) + ((k : Int) - 1) * signed 16 (fld st hi lo)
    decide (-32768 ≤ e ∧ e ≤ 32767)
  pitch (reg (idPlate p 4)) && pitch (reg (idPlate p 5)) && decide ((c * c + n * n - 2 ^ 28).natAbs ≤ 2 ^ 20) &&
    (g.typ != 2 || (view 0 15 g.vx && view 16 31 g.vy))

/-! ### Demand and capacity (R73, R74) -/

/-- A plate as admission counts it: its cost per ray and its bytes in eighths. -/
structure Load where
  cost : Nat
  eighths : Nat
deriving DecidableEq, Repr

/-- Raw size per texel in 1/8 byte (R74). -/
def Geom.texelEighths (g : Geom) : Nat :=
  (match g.fmt with | 0 => 32 | 1 => 32 | 2 => 64 | 3 => if g.a8 then 32 else 24 | 4 => 8 | _ => 1) + (if g.typ = 1 then 16 else 0)

/-- A plate's load: STEPS from its CTRL word; in FLAT every plate costs 1. -/
def Geom.load (g : Geom) (flat : Bool) (ctrl : Word) : Load :=
  { cost := if flat then 1 else match g.typ with | 0 => 1 | 1 => fld ctrl 13 12 + 1 | _ => 4
    eighths := g.vx * g.w * (g.vy * g.h) * g.texelEighths }

/-- The terms of the budget under a stop (R72, R78, R478): FLAT rules, E, f, D. How the stops combine, and f under stop 3, is log entry
24. -/
structure Terms where
  flat : Bool
  engines : Nat
  mhz : Nat
  d : Nat
deriving DecidableEq, Repr

def budgetTerms (mode : Mode) (stop : Nat) : Terms :=
  let stop := if mode = .flat then min stop 1 else stop
  let flat := mode = .flat ∨ stop = 3
  ⟨flat, if flat then 32 else 96, if 1 ≤ stop then 1400 else 1600, if stop = 2 then 2 else 1⟩

/-- A line of the report (R399): demand, capacity, and the reason of its failure. -/
structure Line where
  demand : Nat
  cap : Nat
  fails : Bool
  reason : Nat
deriving DecidableEq, Repr

/-- The ten lines of R74. -/
def budgetLines (reg : Nat → Word) (mode : Mode) (stop : Nat) (plates : List Load) : List Line :=
  let t := budgetTerms mode stop
  let num := (reg idRateNum).toNat
  let den := (reg idRateDen).toNat
  let w := 1024 * fld (reg idRasterSize) 5 0
  let h := 32 * fld (reg idRasterSize) 15 6
  let slots := t.engines * t.mhz * 1000000 * 95 * t.d * den / (100 * num)
  let budget := 3481600000000 * t.d * den / num
  let p := if t.flat then w * h / 256 else w * h
  let samples := p * (plates.map Load.cost).sum
  let plane := (plates.map fun l => ceilDiv (5 * l.eighths) 32).sum
  let pfs := if t.flat then 0 else 6 * w * h
  let dodge := 2 * w * h + 6 * w * h / 256
  let resid := if t.flat then 0 else w * h
  let ingest := ceilDiv (130000000000 * t.d * den) num
  let other := ceilDiv (50000000000 * t.d * den) num
  let rt := plane + pfs + dodge + resid
  let total := rt + ingest + other
  [⟨samples, 8 * slots, decide (8 * slots < samples), 0x0201⟩, ⟨p, slots, decide (slots < p), 0x0202⟩, ⟨plane, 0, false, 0⟩,
    ⟨pfs, 0, false, 0⟩, ⟨dodge, 0, false, 0⟩, ⟨resid, 0, false, 0⟩, ⟨ingest, 0, false, 0⟩, ⟨other, 0, false, 0⟩,
    ⟨total, budget, decide (budget < total), 0x0203⟩, ⟨rt, budget - ingest - other, decide (budget < total), 0x0204⟩]

/-- The reason of the first failing line. -/
def linesReason (l : List Line) : Nat := match l.find? Line.fails with | some x => x.reason | none => 0x0200

/-- The plates of a trial's exposure: slots NEW, and KEEP with a plate in force then (R92). A slot whose ACTION is 3 is none of them: a
COMMIT refuses it before, ADMIT_TRY counts it out (log entry 112). -/
def State.trialSlots (s : State) (t : Trial) : List Nat :=
  (List.range 8).filter fun p =>
    t.actions.getD p 0 == 2 || (t.actions.getD p 0 == 1 && (s.future (Fin.ofNat 8 p)).isSome)

/-- The geometry that a slot of the exposure takes: of the back buffer, or of the buffer in force then. -/
def State.trialGeom (s : State) (t : Trial) (p : Fin 8) : Option Geom :=
  if t.actions.getD p.val 0 = 2 then (s.back p).geom
  else match s.future p with
    | none => none
    | some i => (s.buf p i).geom

/-- The load that admission counts for a slot (R109). -/
def State.trialLoad (s : State) (t : Trial) (flat : Bool) (p : Fin 8) : Load :=
  let own := match s.trialGeom t p with | none => ⟨0, 0⟩ | some g => g.load flat (s.trialReg t (idPlate p.val 0))
  if t.actions.getD p.val 0 = 2 then
    match (s.future p).bind fun i => (s.buf p i).geom with
    | none => own
    | some g =>
      let old := g.load flat (s.baseReg t (idPlate p.val 0))
      if own.eighths < old.eighths ∨ (own.eighths = old.eighths ∧ own.cost < old.cost) then old else own
  else own

/-- R72 and R93 for a trial: the reason, or 0x0200. A set without an exposure leaves the plates as they are. A slot named NEW whose back
buffer has no geometry has no size within the limits: PLATE_SIZE (log entry 111). -/
def State.platesReason (s : State) (t : Trial) (stop : Nat) : Nat :=
  let l := s.trialSlots t
  if !t.expo then 0x0200
  else if l.length < 2 ∨ (1 ≤ stop ∧ 6 < l.length) then 0x0205
  else if l.any fun p => match s.trialGeom t (Fin.ofNat 8 p) with
      | none => true
      | some g => !g.sizeOk || !placementOk (s.trialReg t) p g then 0x0206
  else if l.any fun p => match s.trialGeom t (Fin.ofNat 8 p) with
      | none => true
      | some g => decide (2 < g.typ ∨ 5 < g.fmt) || (g.typ != 0 && g.fmt == 5) then 0x0207
  else 0x0200

/-- Admission of a trial in a mode under a stop (R71): the reason, and the lines when they were computed. -/
def State.admission (s : State) (t : Trial) (mode : Mode) (stop : Nat) : Nat × List Line :=
  let r := s.platesReason t stop
  if r ≠ 0x0200 then (r, [])
  else
    let flat := (budgetTerms mode stop).flat
    let acts := if t.expo then t else { t with actions := List.replicate 8 1 }
    let l := budgetLines (s.trialReg t) mode stop ((s.trialSlots acts).map fun p => s.trialLoad acts flat (Fin.ofNat 8 p))
    (linesReason l, l)

/-- The 176 bytes of R399. -/
def reportBytes (reason stop : Nat) (lines : List Line) (fitsPending : Bool) : List Byte :=
  let fits := reason == 0x0200
  padTo 176 (leBytes 2 (if lines = [] then 0 else 10) ++ leBytes 2 reason ++ leBytes 1 stop ++ leBytes 1 (b2n fits + 2 * b2n fitsPending)
    ++ List.replicate 10 0 ++ lines.flatMap fun l => leBytes 8 l.demand ++ leBytes 8 l.cap)

/-- FITS_PENDING_STOP (R77): while a request is in its grace time. -/
def State.fitsPending (s : State) (t : Trial) : Bool :=
  s.thm.thr == .grace && (s.admission t s.pmu.mode s.thm.pendingStop).1 == 0x0200

/-! ### The exposure in force (R80, R156, R485) -/

/-- The blend list of R156 under a stop, front first: the first 6 of stop 1 (R78) are counted among the plates that are not transparent
already (log entry 113). -/
def State.blendOf (s : State) (stop : Nat) : List Nat :=
  let l := s.expo.order.filter fun p => (s.plates[(Fin.ofNat 8 p : Fin 8)]).inForce && !s.expo.transp.getLsbD p
  if 1 ≤ stop then l.take 6 else l

/-- Does the exposure in force fit in a mode under a stop (R80)? Without one there is nothing to fit. -/
def State.inForceReason (s : State) (mode : Mode) (stop : Nat) : Nat :=
  let flat := (budgetTerms mode stop).flat
  let l := s.blendOf stop
  if l = [] then 0x0200
  else linesReason (budgetLines s.reg mode stop (l.map fun p =>
    match (s.frontBuf (Fin.ofNat 8 p)).geom with
    | none => ⟨0, 0⟩
    | some g => g.load flat (s.reg (idPlate p 0))))

/-- Admission of the exposure in force and of every pending set in a target mode (R485). -/
def State.modeAdmits (s : State) (mode : Mode) : Nat :=
  let r := s.inForceReason mode s.expo.stop
  if r ≠ 0x0200 then r
  else
    (s.expo.pend.foldl (fun (acc : Nat × State) e =>
      if acc.1 ≠ 0x0200 then acc
      else
        let st := acc.2
        let base := st.pendFields
        let t : Trial := ⟨mergeStaged base e.fields, base, e.hasExpo, e.actions⟩
        ((if e.hasExpo then (st.admission t mode st.expo.stop).1 else 0x0200),
          { st with expo := { st.expo with pend := st.expo.pend ++ [e] } }))
      (0x0200, { s with expo := { s.expo with pend := [] } })).1

/-- The stop that the cascade reaches from a stop for the exposure in force (R80). -/
def State.cascade (s : State) : Nat → Nat
  | 0 => 0
  | 1 => if s.inForceReason s.pmu.mode 1 = 0x0200 then 1
    else if s.inForceReason s.pmu.mode 2 = 0x0200 then 2 else 3
  | 2 => if s.inForceReason s.pmu.mode 2 = 0x0200 then 2 else 3
  | _ => 3

end Sys2Proof.Machine
end

