-- ==== Sys2Proof/Machine/Images.lean ====
section
/-!
DEFINITION. The YTC planes outside the plate pool (R124, R217, R223), pre-coded images (R209 to R211) and YTC_LOAD (R212, R220).
-/
namespace Sys2Proof.Machine

/-! ### Planes of the ray-map and correction areas. Their places within the areas are log entry 23. -/

/-- Pixels and lines of a quadrant (R234). -/
def State.quadW (s : State) : Nat := 512 * s.rf idRasterSize 5 0
def State.quadH (s : State) : Nat := 16 * s.rf idRasterSize 15 6

/-- The n-th plane of pixel size in the correction area. -/
def State.finePlane (s : State) (n : Nat) : Plane :=
  ⟨n, .e8, s.quadW, s.quadH, false, 0x640000000 + n * 0x8000000, 0x730000000 + n * 0x80000⟩

/-- The n-th plane of hogel size in the correction area. -/
def State.coarsePlane (s : State) (n : Nat) : Plane :=
  ⟨n, .e8, s.quadW / 16, s.quadH / 16, false, 0x720000000 + n * 0x80000, 0x738000000 + n * 0x800⟩

/-- A Dodge plane of R217: 0 FGAIN, 1 FOFF, 2 to 4 CGAIN, 5 to 7 COFF. -/
def State.dodgePlane (s : State) (q set plane : Nat) : Plane :=
  if plane < 2 then s.finePlane (4 * q + 2 * set + plane) else s.coarsePlane (12 * q + 6 * set + (plane - 2))

/-- A channel of a quadrant's previous-frame store (R223). -/
def State.pfsPlane (s : State) (q ch : Nat) : Plane := s.finePlane (16 + 3 * q + ch)

/-- The residual plane (R124). -/
def State.residPlane (s : State) : Plane :=
  ⟨0, .e8, 2 * s.quadW, 2 * s.quadH, false, 0x600000000, 0x620000000⟩

/-! ### The image (R209, R210) -/

/-- A YTC image being checked: its base in DRAM and its length. -/
structure YImage where
  base : Nat
  len : Nat
deriving DecidableEq, Repr

/-- The entry of block b in an image, with AOPQ and ATRN taken as 0 (R210, R211). -/
def State.imgEntry (s : State) (im : YImage) (b : Nat) : Nat :=
  let e := leNat (s.dramRead (im.base + 16 + 2 * b) 2)
  mkEntry (entMode e) (entLen e) false false (entFb e) + e % 2 ^ 7

/-- The blocks of an image from number b on, packed from offset off: for each its entry, stored bytes and raw bytes; or the
number of the first that fails check 4, and the offset behind the last. -/
def State.imgBlocks (s : State) (im : YImage) (lay : YLayout) : Nat → Nat → Nat → Sum Nat (List (Nat × List Byte × List Byte) × Nat)
  | 0, _, off => .inr ([], off)
  | n + 1, b, off =>
    let e := s.imgEntry im b
    let k := 32 * (entLen e + 1)
    if !entryValid false e || decide (im.len < off + k) then .inl b
    else
      let st := s.dramRead (im.base + off) k
      match decodeStored lay e st with
      | none => .inl b
      | some raw =>
        match s.imgBlocks im lay n (b + 1) (off + k) with
        | .inl f => .inl f
        | .inr (l, fin) => .inr ((e, st, raw) :: l, fin)

/-- The width of a plane in an image's units: elements, or texels for EA1 (R209). -/
def Plane.imgSize (p : Plane) : Nat × Nat := (p.w, p.h)

/-- The layout and the size that an image's header names are those of the plane (R209, R461). -/
def State.imgGeom (s : State) (im : YImage) (p : Plane) : Bool :=
  let h (o n : Nat) : Nat := leNat (s.dramRead (im.base + o) n)
  layoutOf (h 4 1) == some p.lay && h 8 4 == p.imgSize.1 && h 12 4 == p.imgSize.2

/-- The checks of R210 in order: the reason and the failing block, or the blocks to store. -/
def State.imgCheck (s : State) (im : YImage) (p : Plane) : Sum (Nat × Nat) (List (Nat × List Byte × List Byte)) :=
  let h (o n : Nat) : Nat := leNat (s.dramRead (im.base + o) n)
  let none32 := 2 ^ 32 - 1
  if im.len < 16 ∨ h 0 4 ≠ 0x49435459 ∨ h 5 3 ≠ 0 then .inl (0x0301, none32)
  else if !s.imgGeom im p then .inl (0x0302, none32)
  else if im.len < 16 + 2 * p.blocks then .inl (0x0301, none32)
  else
    match s.imgBlocks im p.lay p.blocks 0 (16 + 2 * p.blocks) with
    | .inl b => .inl (0x0301, b)
    | .inr (l, fin) => if fin < im.len then .inl (0x0301, p.blocks) else .inr l

/-- The adaptation states that a stored PRED block ends with (R200): those of coding its raw bytes with its own header. -/
def predEnds (lay : YLayout) (st raw : List Byte) : Option (List Rice) :=
  match readBits 2 (st.map byteBits).flatten with
  | none => none
  | some (p, bits) =>
    match readK0 (layoutComps lay) bits with
    | none => none
    | some (k0, _) => some (codePred lay p k0 raw).2

/-- Store one block of an image through its Fixer (R211). -/
def State.imgStore (s : State) (p : Plane) (b : Nat) (e : Nat) (st raw : List Byte) : State :=
  let f := fixerOf (p.addr + 512 * b)
  let fl := alphaFlags p.lay p.alpha raw
  let ends := if entMode e = 1 then predEnds p.lay st raw else none
  let s := match ends with
    | none => s
    | some r => s.setFixer f { s.fixers[f] with ends := s.fixers[f].ends.set (Fin.ofNat 7 (layoutCode p.lay)) (some r) }
  let c : Coded := ⟨entMode e, st, ends, entFb e, false, false⟩
  (s.fixCount f.val c).storeNow p b st (mkEntry (entMode e) (entLen e) fl.1 fl.2 (entFb e))

/-- Store the blocks of an accepted image. -/
def State.imgStoreAll (p : Plane) : Nat → List (Nat × List Byte × List Byte) → State → State
  | _, [], s => s
  | b, (e, st, raw) :: l, s => State.imgStoreAll p (b + 1) l (s.imgStore p b e st raw)

/-! ### Targets of YTC_LOAD (R212, R220) -/

/-- A target: a plane of a slot's back buffer, or a Dodge plane. -/
inductive YTarget where
  | plate (p : Fin 8) (pl : Plane)
  | dodge (q set plane : Nat)
deriving DecidableEq, Repr

/-- Check 2 of R212. -/
def State.ytcTarget (s : State) (c : Cmd) : Option YTarget :=
  let t := c.arg 0x0D 1
  if c.arg 0x0C 1 = 0 then
    let p : Fin 8 := Fin.ofNat 8 (t % 8)
    if 32 ≤ t ∨ c.arg 0x0E 8 ≠ 0 ∨ c.arg 0x16 2 ≠ 0 ∨ (s.plate p).back ≠ .opened then none
    else ((s.back p).plane (t / 8)).map fun pl => .plate p pl
  else if c.arg 0x0C 1 = 1 then
    if 64 ≤ t ∨ c.arg 0x0E 8 ≠ 0 ∨ c.arg 0x16 2 ≠ 0 then none else some (.dodge (t % 4) (t / 4 % 2) (t / 8 % 8))
  else none

def State.dodgeSet (s : State) : Nat := s.rf idCorrCtrl 3 3

/-- The Dodge sets in force now and at the applied tick of every pending set (R220): a set that stages no DODGE_SET keeps the
value before it. -/
def State.dodgeInForce (s : State) : List Nat :=
  s.expo.pend.foldl (fun l e =>
    match mapFind e.fields idCorrCtrl with
    | some w => fld w 3 3 :: l
    | none => l) [s.dodgeSet]

def YTarget.plane (t : YTarget) (s : State) : Plane :=
  match t with
  | .plate _ pl => pl
  | .dodge q set plane => s.dodgePlane q set plane

/-- YTC_LOAD (R210 to R212): its first three checks; a plate target's first write credit is taken and held until the load ends with
SLOW_COMMAND_DONE, so that the buffer is not READY before (R211, R63). -/
def execYtcLoad (c : Cmd) (s : State) : Out :=
  .next (if s.mayStart c 0x0304 && s.fabRuns && !s.fabClosing then
    let a := c.arg 0 8
    let n := c.arg 8 4
    if !hostRange a n then s.refuse c 0x010A
    else
      match s.ytcTarget c with
      | none => s.refuse c 0x0303
      | some (.dodge q set _) =>
        if s.dodgeInForce.contains set then s.refuse c 0x0402
        else { s.startCmd c with loads := { s.loads with dodge := s.loads.dodge ++ [(q, set)] } }
      | some (.plate p _) => if 65535 ≤ (s.back p).credits then s else (s.startCmd c).takeCredit p (s.plate p).backIx 1
  else s)

/-- Tile flags after a whole plane has been stored (R204). -/
def State.planeFlags (s : State) (p : Fin 8) (i : Fin 2) (pl : Plane) : State :=
  (List.range pl.blocks).foldl (fun s b => s.updateFlags p i pl b) s

/-- The end of a YTC_LOAD (R210 to R212): the image is read, checked and stored, or the load is refused with the failing block. It waits
for the Fixers to store what they hold of the plane, for a read of it in progress, and for its tokens (R199, R207, R211, R343). -/
def State.ytcDone (s : State) (c : Cmd) : State :=
  let s0 := s
  if !(s.fabRuns && s.room .fixer (c.arg 0 8) (c.arg 8 4)) then s
  else
    let s := s.access .fixer (c.arg 0 8) (c.arg 8 4)
    let im : YImage := ⟨c.arg 0 8, c.arg 8 4⟩
    let t := c.arg 0x0D 1
    let refused := fun (s : State) (r : Nat × Nat) => (s.raiseN 324 r.1 r.2).answer c 2 r.1 (leBytes 4 r.2)
    if c.arg 0x0C 1 = 0 then
      let p : Fin 8 := Fin.ofNat 8 (t % 8)
      let i := (s.plate p).backIx
      match (s.back p).plane (t / 8) with
      | none => (refused (s.dropCredit p i 1) (0x0303, 2 ^ 32 - 1)).evalReady p
      | some pl =>
        if !s.planeFree pl then s0
        else match s.imgCheck im pl with
        | .inl r => (refused (s.dropCredit p i 1) r).evalReady p
        | .inr l =>
          let s := ((s.takeCredit p i (l.length - 1)).dropCredit p i (l.length - 1)).dropCredit p i 1
          (((State.imgStoreAll pl 0 l s).planeFlags p i pl).evalReady p).done c (leBytes 4 l.length)
    else
      let q := t % 4
      let set := t / 4 % 2
      let s := { s with loads := { s.loads with dodge := s.loads.dodge.erase (q, set) } }
      let pl := s.dodgePlane q set (t / 8 % 8)
      if !s.planeFree pl then s0
      else match s.imgCheck im pl with
      | .inl r => refused s r
      | .inr l => (State.imgStoreAll pl 0 l s).done c (leBytes 4 l.length)

end Sys2Proof.Machine
end

