-- ==== Sys2Proof/Machine/Expo.lean ====
section
/-!
DEFINITION. Exposures and commits (chapter 2): COMMIT, COMMIT_CANCEL, EXPO_QUERY and ADMIT_TRY, and what a tick does with the
committed sets that are due (R57 to R67).
-/
namespace Sys2Proof.Machine

/-! ### Targets (R57 to R59) -/

/-- The index of the current tick, one below the first while none has arrived. -/
def State.curTick (s : State) : Int := if s.expo.ticked then s.expo.tick else (s.tick.base : Int) - 1

/-- The latest pending target. -/
def State.lastTarget (s : State) : Option Nat := (s.expo.pend.getLast?).map PendSet.target

/-- The period that a set's target must be a multiple of (R44, R57, R58). N_LOG2 = 3 has no frame ticks of its own: it is refused as
STEER. -/
def setAlign (expo changesN : Bool) (nLog2 : Nat) : Nat := max (if expo then 2 ^ min nLog2 2 else 1) (if changesN then 4 else 1)

/-- Is tick k at least 500 µs ahead (R58, R59)? -/
def State.inTime (s : State) (k : Nat) : Bool := decide ((s.tickTime + 500000 * 2 ^ 30) * s.rateNum ≤ s.nominalNum k)

/-- The tick that the wildcard resolves to (R57). -/
def State.wildResolve (s : State) (align : Nat) : Nat :=
  let m := max align (if s.expo.d2 then 2 else 1)
  let early := ((s.tickTime + 500000 * 2 ^ 30 - s.epoch) * s.rateNum)
  let unit : Int := (s.rateDen : Int) * 1000000000 * 2 ^ 30
  let k0 : Int := s.tick.base + -(Int.fdiv (-early) (max unit 1))
  let k1 : Int := match s.lastTarget with | none => 0 | some t => t + 1
  let k := (max (max k0 k1) (s.curTick + 1)).toNat
  ceilDiv k m * m

/-! ### COMMIT -/

/-- The slots that a staging set names NEW. -/
def Trial.news (t : Trial) : List Nat := if t.expo then (List.range 8).filter fun p => t.actions.getD p 0 == 2 else []

/-- The reason for which the target is refused, 0x0200 when it is not; the order of the checks of a COMMIT is log entry 25. -/
def State.targetReason (s : State) (target align : Nat) : Nat :=
  if s.curTick + 65536 < target then 0x0209
  else if target % align ≠ 0 then 0x020A
  else if (match s.lastTarget with | none => false | some t => decide (target ≤ t)) then 0x020B
  else if !s.inTime target ∨ (target : Int) ≤ s.curTick then 0x0208
  else 0x0200

/-- A YTC_LOAD or an L bracket that runs writes into this Dodge set (R220). -/
def State.dodgeWritten (s : State) (set : Nat) : Bool :=
  (s.loads.dodge.any fun e => e.2 == set) || (s.cal.lBusy && s.cal.lTarget == some set)

/-- The checks of a COMMIT before admission: the first reason, 0x0200 when all pass. -/
def State.commitReason (s : State) (c : Cmd) (t : Trial) (align : Nat) : Nat :=
  if c.tray ≠ s.dk.owner then 0x0105
  else if !s.active || (match s.pmu.trans with | some t => t.target == .latent | none => false) then 0x020E
  else if !resultOk (c.arg 0 8) 176 then 0x010A
  else if 4 ≤ s.expo.pend.length then 0x020C
  else if t.expo && t.actions.contains 3 then 0x0207
  else
    let r := if c.target ≠ wildTarget then s.targetReason c.target align
      else if s.curTick + 65536 < s.wildResolve align then 0x0209 else 0x0200
    if r ≠ 0x0200 then r
    else if t.news.any fun p => s.pendingNew (Fin.ofNat 8 p) then 0x020D
    else if s.dodgeWritten (fld (s.trialReg t idCorrCtrl) 3 3) then 0x0402
    else rowsReason (s.trialReg t) t.expo (s.trialSlots t)

/-- What the responses of a COMMIT carry when admission ran (R398). -/
def State.commitPayload (s : State) (target : Nat) (fp : Bool) : List Byte :=
  leBytes 8 target ++ leBytes 1 (b2n fp + 4 * s.expo.stop)

/-- A refused COMMIT: the staging set stays, E291 is raised (R56, R61). -/
def State.commitRefused (s : State) (c : Cmd) (reason : Nat) (payload : List Byte) : State :=
  (s.raiseN 291 (reason + 2 ^ 16 * c.tray.val) (c.target % 2 ^ 32)).answer c 2 reason payload

/-- COMMIT (R54, R56 to R61, R71, R398, R399). -/
def execCommit (c : Cmd) (s : State) : Out :=
  .next (if s.mayStart c 0x0201 then
    let t := s.trial
    let n := s.trialN t
    let changesN := n != s.baseN t
    let align := setAlign t.expo changesN n
    let r := s.commitReason c t align
    if r ≠ 0x0200 then s.commitRefused c r []
    else
      let target := if c.target = wildTarget then s.wildResolve align else c.target
      let runs := t.expo || changesN || s.trialReg t idDscCtrl != s.baseReg t idDscCtrl
      let a := if runs then s.admission t s.pmu.mode s.expo.stop else (0x0200, [])
      let fp := runs && s.fitsPending t
      if runs && !s.resultRoom (c.arg 0 8) 176 then s
      else
        let s := if runs then s.putResult (c.arg 0 8) (reportBytes a.1 s.expo.stop a.2 fp) else s
        if a.1 ≠ 0x0200 then s.commitRefused c a.1 (if a.2 = [] then [] else s.commitPayload target fp)
        else
          let e : PendSet := ⟨target, c, s.regs.staged, t.expo, t.actions, changesN, n⟩
          let s := { s with expo := { s.expo with pend := s.expo.pend ++ [e] }, regs := { s.regs with staged := [] } }
          (s.startCmd c).pushResp c 1 false 0x0200 (s.commitPayload target fp)
  else s)

/-- The seal of a buffer that a cancelled set named NEW ends (R63, R95). -/
def State.unseal (s : State) (p : Fin 8) : State :=
  let x := s.plate p
  if x.back = .sealed ∨ x.back = .ready then s.setPlate p { x with back := .opened } else s

/-- A pending set ends without effect: its COMMIT gets the given status and reason. -/
def State.endSet (s : State) (e : PendSet) (status reason : Nat) : State :=
  if s.waits e.cmd then s.answer e.cmd status reason [] else s

/-- COMMIT_CANCEL (R59, R63, R82). The reason of the cancelled COMMIT's final response is a free value (log entry 26). -/
def execCommitCancel (c : Cmd) (s : State) : Out :=
  .next (if s.mayStart c 0x0202 then
    let k := c.arg 0 8
    if c.tray ≠ s.dk.owner then s.refuse c 0x0105
    else
      match s.expo.pend.find? fun e => e.target == k with
      | none => s.refuse c 0x0215
      | some e =>
        if !s.inTime k then s.refuse c 0x0208
        else
          let s := { s with expo := { s.expo with pend := s.expo.pend.filter fun e => e.target != k } }
          let s := (List.finRange 8).foldl (fun s (p : Fin 8) =>
            if e.hasExpo && e.actions.getD p.val 0 == 2 then s.unseal p else s) s
          let f := s.free
          (f.2.endSet e 3 (fld f.1 15 0)).answer c 0 0x0200 []
  else s)

/-- EXPO_QUERY (R403): the pending targets, laid out as log entry 27 gives: the count, then each target's low word. -/
def execExpoQuery (c : Cmd) (s : State) : Out :=
  .next (if s.mayStart c 0x0204 then
    s.done c (leBytes 4 s.expo.pend.length ++ s.expo.pend.flatMap fun e => leBytes 4 e.target)
  else s)

/-- ADMIT_TRY (R71, R403): admission of the staging set, with its report and without a commit (log entry 27). -/
def execAdmitTry (c : Cmd) (s : State) : Out :=
  .next (if s.mayStart c 0x0205 then
    if !resultOk (c.arg 0 8) 176 then s.refuse c 0x010A
    else if !s.resultRoom (c.arg 0 8) 176 then s
    else
      let t := s.trial
      let a := s.admission t s.pmu.mode s.expo.stop
      let fp := s.fitsPending t
      let s := s.putResult (c.arg 0 8) (reportBytes a.1 s.expo.stop a.2 fp)
      s.done c (s.commitPayload 0 fp)
  else s)

/-! ### A set takes effect (R61 to R67, R103, R110) -/

/-- The depth of slot p in force. -/
def State.depthOf (s : State) (p : Nat) : Int := signed 31 (fld (s.reg (idPlate p 3)) 30 0)

/-- Put a slot into an order before the first slot that must come after it. -/
def insertBy (before : Nat → Nat → Bool) (p : Nat) : List Nat → List Nat
  | [] => [p]
  | x :: xs => if before p x then p :: x :: xs else x :: insertBy before p xs

/-- Depth order: ascending Z, equal Z by slot number (R110); the programmed order is taken as listed (R111). -/
def State.depthOrder (s : State) (l : List Nat) : List Nat :=
  l.foldl (fun acc p => insertBy (fun a b => decide (s.depthOf a < s.depthOf b ∨ (s.depthOf a = s.depthOf b ∧ a < b))) p acc) []

/-- Put a held slot back into a new programmed order (R67): between its former neighbours where that place is unique, otherwise after
all plates at its depth, or behind its former predecessors where there is none (log entry 28). -/
def State.placeHeld (s : State) (prev : List Nat) (l : List Nat) (h : Nat) : List Nat :=
  let before := (prev.takeWhile fun x => x != h).filter l.contains
  let after := ((prev.dropWhile fun x => x != h).drop 1).filter l.contains
  let lastB := (List.range l.length).foldl (fun n i => if before.contains (l.getD i 99) then i + 1 else n) 0
  let firstA := ((List.range l.length).find? fun i => after.contains (l.getD i 99)).getD l.length
  let lastZ := (List.range l.length).foldl (fun n i => if s.depthOf (l.getD i 99) = s.depthOf h then i + 1 else n) 0
  let i := if lastB = firstA ∧ prev.contains h then lastB else if 0 < lastZ then lastZ else lastB
  l.take i ++ [h] ++ l.drop i

/-- The blend order after a set has been applied; `changed` says that the set staged EXPO.BLEND, `held` lists the slots held with a
front buffer. -/
def State.newOrder (s : State) (changed : Bool) (held : List Nat) : List Nat :=
  let on := (List.range 8).filter fun p => (s.plates[(Fin.ofNat 8 p : Fin 8)]).inForce
  let w := s.reg idBlend
  if !bit w 0 then s.depthOrder on
  else
    let l := (blendList w).filter on.contains
    if changed then held.foldl (fun l h => s.placeHeld s.expo.order l h) (l.filter fun p => !held.contains p)
    else l

/-- ACTION in force reads 1 where the slot has a plate in force, 0 elsewhere (R92). -/
def State.syncActions (s : State) : State :=
  (List.range 8).foldl (fun s p => s.setRf (idPlate p 0) 1 0 (b2n (s.plates[(Fin.ofNat 8 p : Fin 8)]).inForce)) s

/-- What the exposure of a set does to slot p (R52, R57, R64, R65, R92, R103): the state, and whether the plate is held. A plate that became
ready in the clock of the sample counts as not ready (log entry 114). -/
def State.applyAction (s : State) (p : Fin 8) (a : Nat) : State × Bool :=
  let x := s.plate p
  let b := BitVec.ofNat 8 (2 ^ p.val)
  if a = 2 then
    if x.back = .ready ∧ x.readyAt < s.now then
      let s := s.promote p
      ({ s with expo := { s.expo with hold := s.expo.hold &&& ~~~ b, transp := s.expo.transp &&& ~~~ b } }, false)
    else
      let s := { s with expo := { s.expo with hold := s.expo.hold ||| b } }
      (if x.inForce then s else { s with expo := { s.expo with transp := s.expo.transp ||| b } }, true)
  else
    let s := { s with expo := { s.expo with hold := s.expo.hold &&& ~~~ b } }
    (if a = 1 ∨ !x.inForce then s else s.setPlate p { x with inForce := false }, false)

/-- A committed set takes effect at tick k (R61 to R67). -/
def State.applySet (s : State) (k : Nat) (e : PendSet) : State :=
  let r := (List.finRange 8).foldl (fun (acc : State × List Nat) (p : Fin 8) =>
    if e.hasExpo then
      let x := acc.1.applyAction p (e.actions.getD p.val 0)
      (x.1, if x.2 then acc.2 ++ [p.val] else acc.2)
    else acc) (s, [])
  let s := r.1
  let held := r.2
  let kept := e.fields.filter fun f => !held.any fun p => decide (idPlate p 0 ≤ f.1 ∧ f.1 < idPlate (p + 1) 0)
  let s := kept.foldl (fun s f => s.setReg f.1 (s.overlay kept f.1)) s
  let changed := (mapFind e.fields idBlend).isSome
  let shown := held.filter fun p => (s.plates[(Fin.ofNat 8 p : Fin 8)]).inForce
  let s := if e.hasExpo then { s with expo := { s.expo with order := s.newOrder changed shown } } else s
  let s := s.syncActions
  let s := { s with expo := { s.expo with applied := k } }
  let s := if held = [] then s else s.raiseN 289 (maskOf held) 0
  let s := if held.any fun p => !(s.plates[(Fin.ofNat 8 p : Fin 8)]).inForce then s.raiseN 290 (s.expo.transp &&& BitVec.ofNat 8 (maskOf held)).toNat 0 else s
  let late := decide (e.target ≠ k)
  let s := s.raiseN 288 (s.expo.hold.toNat + 256 * s.expo.transp.toNat) (e.target % 2 ^ 32)
  let s := if late then s.raiseN 292 (e.target % 2 ^ 32) 0 else s
  if s.waits e.cmd && s.dk.restarting.isNone then
    s.answer e.cmd 0 0x0200 (leBytes 8 k ++ leBytes 1 s.expo.hold.toNat ++ leBytes 1 s.expo.transp.toNat ++ leBytes 1 (b2n late))
  else s

/-- Is a set due at tick k, and does k satisfy the alignment it was accepted with (R57, R62)? -/
def PendSet.due (e : PendSet) (k : Nat) : Bool :=
  e.target == k || (decide (e.target < k) && k % setAlign e.hasExpo e.changesN e.nLog2 == 0)

/-- Would a set change N now? A set that did not change it when it was accepted does once an earlier one has been cancelled. -/
def State.newN (s : State) (e : PendSet) : Bool := fld (s.overlay e.fields idSteer) 1 0 != s.rf idSteer 1 0

/-- Does a set take effect at tick k? One that changes N waits for a multiple of 4 (R44, log entry 115). -/
def State.dueNow (s : State) (k : Nat) (e : PendSet) : Bool := e.due k && (k % 4 == 0 || !s.newN e)

/-- Step 3 of R51: the sets due at tick k take effect in target order. -/
def State.applyDue (s : State) (k : Nat) : State :=
  s.expo.pend.foldl (fun s e =>
    if s.dueNow k e then
      ({ s with expo := { s.expo with pend := s.expo.pend.erase e } } : State).applySet k e
    else s) s

/-- Pending sets end with FAILED and a reason, in target order, and none takes effect (R487, R539). -/
def State.endPending (s : State) (reason : Nat) : State :=
  let l := s.expo.pend
  l.foldl (fun s e => s.endSet e 3 reason) { s with expo := { s.expo with pend := [] } }

end Sys2Proof.Machine
end

