-- ==== Sys2Proof/Machine/Window.lean ====
section
/-!
DEFINITION. The control window (R363, R375, R413, R414, R431, R549 and the event block of chapter 17) and the DRAM window (R364,
R107): what a word of a region reads and what a write to it does.
-/
namespace Sys2Proof.Machine

/-! ### Regions of a quadrant (R122, R123) -/

/-- Is quadrant q on the right, and is it below (R25)? -/
def quadRight (q : Fin 4) : Nat := q.val % 2
def quadBelow (q : Fin 4) : Nat := q.val / 2

/-- The regions that quadrant q holds, in raster order, as 32 * ry + rx. -/
def State.quadRegions (s : State) (q : Fin 4) : List Nat :=
  let qw := s.rf idRasterSize 5 0
  let qh := s.rf idRasterSize 15 6
  let x0 := 32 * qw * quadRight q
  let y0 := qh * quadBelow q
  let rows := (List.range 17).filter fun ry => decide (y0 < 64 * ry + 64 ∧ 64 * ry < y0 + qh)
  let cols := (List.range 32).filter fun rx => decide (x0 < 64 * rx + 64 ∧ 64 * rx < x0 + 32 * qw)
  rows.flatMap fun ry => cols.map fun rx => 32 * ry + rx

/-! ### Words of the control window -/

/-- What a word of the control window is: a register with its identity, a doorbell, a word of a Tray, of the time readout, of a
Refocus table, of the staging area, BOOT.GO, a reserved word that reads 0 and drops writes, or nothing. -/
inductive CtlWord where
  | reg (f : Found)
  | bell (t : Fin 8)
  | tray (t : Fin 8) (off : Nat)
  | time (blk : Fin 6) (r : Nat)
  | refocus (c : Fin 12) (off : Nat)
  | stage (off : Nat)
  | go
  | zero
  | unmapped
deriving DecidableEq, Repr

/-- A register of the catalogue as a window word. -/
def regWord (id : Nat) (other : CtlWord) : CtlWord := match findReg id with | some f => .reg f | none => other

/-- The registers of the event block (chapter 17), by the word's offset in the block. -/
def eventWord (off : Nat) : CtlWord :=
  if off < 0x120 then regWord (0x7400 + off / 4) .zero
  else if off = 0x800 then regWord 0x7448 .zero
  else if off = 0x804 then regWord idEvFatal .zero
  else if 0x1000 ≤ off ∧ off < 0x1900 then regWord (0x7500 + (off - 0x1000) / 4) .zero
  else if 0x2000 ≤ off ∧ off < 0x4400 then regWord (idCap ((off - 0x2000) / 16) (off / 4 % 4)) .zero
  else .zero

/-- The Trays answer once the firmware has started (R39, R375); not while a warm restart waits for another image (R554). -/
def State.traysOpen (s : State) : Bool := s.dk.running && s.pmu.boot == .fwRunning

/-- The word at an offset of the control window (R363), a multiple of 4, in the availability that R39 gives its region. In FAILED the identity
and status region answers and nothing else (R545). -/
def State.ctlWord (s : State) (a : Nat) : CtlWord :=
  if a < 0x1000 then (if a < 0x1000 ∧ a / 4 < 0x400 then regWord (a / 4) .zero else .zero)
  else if s.pmu.boot = .failed then .unmapped
  else if a < 0x2000 then
    (if h : (a - 0x1000) / 4 < 8 then .bell ⟨(a - 0x1000) / 4, h⟩ else .zero)
  else if 0x10000 ≤ a ∧ a < 0x50000 then
    (if s.traysOpen then .tray (Fin.ofNat 8 ((a - 0x10000) / 0x8000)) ((a - 0x10000) % 0x8000) else .unmapped)
  else if 0x100000 ≤ a ∧ a < 0x200000 then (if s.dk.running then eventWord (a - 0x100000) else .unmapped)
  else if 0x200000 ≤ a ∧ a < 0x300000 then
    (if s.dk.running then
      (if h : (a - 0x200000) / 16 < 6 then .time ⟨(a - 0x200000) / 16, h⟩ (a / 4 % 4) else .zero)
    else .unmapped)
  else if 0x400000 ≤ a ∧ a < 0x800000 then
    (if s.pmu.mode = .service then
      (if a < 0x440000 then regWord ((a - 0x400000) / 4) .unmapped
       else if h : (a - 0x440000) / 0x2000 < 12 then .refocus ⟨(a - 0x440000) / 0x2000, h⟩ ((a - 0x440000) % 0x2000)
       else .unmapped)
    else .unmapped)
  else if s.pmu.window then
    (if 0x800000 ≤ a ∧ a < 0xB00000 then .stage (a - 0x800000) else if a = 0xFFFFC0 then .go else .unmapped)
  else .unmapped

/-- Four bytes as a word. -/
def wordOf (l : List Byte) : Word := BitVec.ofNat 32 (leNat l)

/-- A word of a Refocus table (R133, R413): table A first, B at 0x1000; an entry per region of the quadrant in raster
order. Of a quadrant with more than 128 regions the table shows the first 128, which fill it (log entry 125). -/
def State.tableWord (s : State) (c : Fin 12) (off : Nat) : Word :=
  let g := if off < 0x1000 then s.rfc.tabA[c] else s.rfc.tabB[c]
  let q : Fin 4 := Fin.ofNat 4 (c.val / 3)
  match (s.quadRegions q)[off % 0x1000 / 32]? with
  | none => 0
  | some r => wordOf (((rfBytes (mapGet (fun _ => rfIdentity) g.entries r)).drop (off % 32)).take 4)

/-- A word of the time readout (R431): SEC_LO shows the view now, the others the hold register. -/
def State.timeWord (s : State) (b : Fin 6) (r : Nat) : Word :=
  let h := s.time.holds[b]
  match r with
  | 0 => loWord (secOf (s.blockView b))
  | 1 => hiWord (secOf h)
  | 2 => BitVec.ofNat 32 (nsOf h)
  | _ => BitVec.ofNat 32 (fracOf h)

/-- What a control-window word reads. -/
def State.readCtl (s : State) (w : CtlWord) : Word :=
  match w with
  | .reg f => s.readWord f false
  | .bell _ => 0
  | .tray t off => wordOf ((List.range 4).map fun i => s.trayByte t (off + i))
  | .time b r => s.timeWord b r
  | .refocus c off => s.tableWord c off
  | .stage off => wordOf (s.imgBytes off 4)
  | .go => 0
  | .zero => 0
  | .unmapped => 0

/-- What reading a word does beside (R20, R431). -/
def State.readCtlEffect (s : State) (w : CtlWord) : State :=
  match w with
  | .reg f => s.capture f
  | .time b 0 => { s with time := { s.time with holds := s.time.holds.set b (s.blockView b) } }
  | _ => s

/-- A GO write (R549): the window closes and verification starts. -/
def State.bootGo (s : State) (len : Nat) : State :=
  if s.pmu.window then
    { s with pmu := { s.pmu with window := false, boot := .verify }, dk := { s.dk with imageLen := len % 2 ^ 24 } }
  else s

/-- BOOT_GO (R545, R549). -/
def execBootGo (len : Nat) (s : State) : Out := .next (s.bootGo len)

/-- Is a Tray word writable by the host (R375)? -/
def trayWritable (off : Nat) : Bool := decide (off < 0x4000) || off == 0x6008

/-- What writing a word of the control window does. A table of Refocus is not writable from here; a write to an inactive one while READY =
1 is refused with E4 (R138), whose capture is 0, since the word has no parameter ID (log entry 124). -/
def State.writeCtl (s : State) (w : CtlWord) (v : Word) : State :=
  match w with
  | .reg f => s.writeReg f v 0
  | .bell t => s.doorbell t v
  | .tray t off =>
    if off < 0x4000 then
      let y := s.tray t
      s.setTray t { y with cmdRing := ringWrite y.cmdRing off (leBytes 4 v.toNat) }
    else if off = 0x6008 ∧ bit v 16 then s.setTray t { s.tray t with dbErr := false }
    else s
  | .refocus _ off =>
    if s.rfc.ready && decide (off < 0x1000) == s.rfc.active then s.settingRefused 0 0 else s
  | .stage off => { s with dk := { s.dk with image := ringWrite s.dk.image off (leBytes 4 v.toNat) } }
  | .go => s.bootGo (v.toNat % 2 ^ 24)
  | _ => s

/-- The words of an access of n bytes. -/
def State.ctlWords (s : State) (a n : Nat) : List CtlWord := (List.range (n / 4)).map fun i => s.ctlWord (a + 4 * i)

end Sys2Proof.Machine
end

