-- ==== Sys2Proof/Machine/Mask.lean ====
section
/-!
DEFINITION. Mask and dispatch (chapter 6): the flags of tiles under overrides (R164 to R166), strip footprints and cull decisions
(R167 to R175), dormancy, the reach of a plate (R306), and SKIP_LIST and STRIP_DISPATCH.
-/
namespace Sys2Proof.Machine

/-! ### What is in force -/

/-- The rules of FLAT hold: mode FLAT, or stop 3 (R78, R95). -/
def State.flatNow (s : State) : Bool := (budgetTerms s.pmu.mode s.expo.stop).flat

/-- The blend list in force, front first (R156). -/
def State.blendNow (s : State) : List Nat := s.blendOf s.expo.stop

/-- A slot's placement in force with the geometry of its front buffer (R91, R147). -/
def State.placed (s : State) (p : Fin 8) : Placed :=
  let g := ((s.frontBuf p).geom).getD ⟨0, 0, 0, 0, 0, 0, false⟩
  let r (k : Nat) : Word := s.reg (idPlate p.val k)
  { typ := g.typ, w := g.w, h := g.h, vx := g.vx, vy := g.vy
    ox := (r 1).toInt, oy := (r 2).toInt, z := signed 31 (fld (r 3) 30 0)
    px := (r 4).toNat, py := (r 5).toNat
    cos := signed 16 (fld (r 6) 15 0), sin := signed 16 (fld (r 6) 31 16)
    dz := fld (r 7) 15 0, steps := fld (r 0) 13 12
    d0x := signed 16 (fld (r 8) 15 0), d0y := signed 16 (fld (r 8) 31 16)
    stepX := signed 16 (fld (r 9) 15 0), stepY := signed 16 (fld (r 9) 31 16) }

def State.easel (s : State) (q : Fin 4) : Easel := s.easels[q]
def State.setEasel (s : State) (q : Fin 4) (e : Easel) : State := { s with easels := s.easels.set q e }

/-- TILE.OFFSET_X and TILE.OFFSET_Y. -/
def State.tileX (s : State) : Int := (s.reg idTileX).toInt
def State.tileY (s : State) : Int := (s.reg idTileY).toInt
def State.residEn (s : State) : Bool := bit (s.reg idRayCtrl) 0

/-- The record of a region in the ray map (R125). -/
def State.regionRec (s : State) (r : Nat) : List Byte := mapGet (fun _ => List.replicate 1088 0) s.rayMap.recs r

/-- The Refocus entry of a region in the generation in force (R139). -/
def State.refocusNow (s : State) (r : Nat) : RfEntry :=
  mapGet (fun _ => rfIdentity) ((s.rfc.history.head?).getD RfGen.reset).entries r

/-- The bound store entry of a region and a steer state (R168). -/
def State.boundOf (s : State) (r st : Nat) : DirBound := mapGet (fun _ => ⟨0, 0, 0, 0⟩) s.rayMap.bounds (4 * r + st)

/-! ### Tile flags as Mask uses them (R164 to R166) -/

/-- The tiles of the atlas that a region of a plate plane touches: first and last column and row, exclusive. -/
def Buf.tilesOf (b : Buf) (n : Nat) (r : CtRegion) : Option (Nat × Nat × Nat × Nat) :=
  (b.plane n).map fun pl =>
    let k := if n = 1 then 2 else 1
    let w := k * layoutTexW pl.lay
    let h := k * layoutBh pl.lay
    (r.x0 * w / 64, ceilDiv (r.x1 * w) 64, r.y0 * h / 64, ceilDiv (r.y1 * h) 64)

/-- Is an atlas tile of slot p's front buffer under a Contact override (R166)? -/
def State.overridden (s : State) (p : Fin 8) (tx ty : Nat) : Bool :=
  let i := (s.plate p).front
  s.contact.overrides.any fun o =>
    match o.2.1.plate with
    | some (p', i', n) =>
      p' == p && i' == i &&
        (match (s.buf p i).tilesOf n o.2.1 with
        | some (x0, x1, y0, y1) => decide (x0 ≤ tx ∧ tx < x1 ∧ y0 ≤ ty ∧ ty < y1)
        | none => false)
    | none => false

/-- May the OPAQUE flags of slot p be used? Those of an A1 plate only while MASK_BA.A is 0xFFFF (R164). -/
def State.opqUsed (s : State) (p : Fin 8) : Bool :=
  match (s.frontBuf p).geom with
  | some g => g.fmt != 5 || fld (s.reg (idPlate p.val 11)) 31 16 == 0xFFFF
  | none => false

/-- The flags of an atlas tile of slot p: bit 0 OPAQUE, bit 1 TRANSPARENT; for A1, OPAQUE only while the fill's A is 0xFFFF. -/
def State.atlasFlag (s : State) (p : Fin 8) (tx ty : Nat) : Nat :=
  let b := s.frontBuf p
  if s.overridden p tx ty then 0
  else
    let f := b.flag (256 * ty + tx)
    if b.geom.isNone then 0 else if s.opqUsed p then f else f - f % 2

/-- A bit of a view-local tile's flags: set in every view (R165). -/
def State.tileIs (s : State) (p : Fin 8) (k tx ty : Nat) : Bool :=
  match (s.frontBuf p).geom with
  | none => false
  | some g => (List.range g.vy).all fun j => (List.range g.vx).all fun i =>
      (s.atlasFlag p (i * (g.w / 64) + tx) (j * (g.h / 64) + ty)).testBit k

/-! ### A strip's footprints and marks (R167 to R172) -/

/-- The ray box of strip m of quadrant q's hogel row; strips and rows count across the tile. -/
def State.stripBox (s : State) (q : Fin 4) (st row m : Nat) : RayBox :=
  let mg := m + quadRight q * s.rf idRasterSize 5 0
  let hy := row + quadBelow q * s.rf idRasterSize 15 6
  let r := 32 * (hy / 64) + mg / 2
  rayBox (s.regionRec r) (s.refocusNow r) (s.boundOf r st) s.residEn s.flatNow s.tileX s.tileY mg hy

/-- A plate's part in a strip: the slot, its view-local footprint tiles, and its mark: 0 kept, 1 SKIPPED, 2 OCCLUDED, 3
DORMANT. -/
structure Culled where
  slot : Fin 8
  tiles : List (Nat × Nat)
  mark : Nat
deriving DecidableEq, Repr

/-- The marks of a strip along the blend list; `opq` says that an earlier plate covers its whole footprint with OPAQUE tiles. DORMANT states
that still stand when DORMANT_EN is cleared mark nothing (log entry 149). -/
def State.cullList (s : State) (q : Fin 4) (st : Nat) (box : RayBox) : List Nat → Bool → List Culled
  | [], _ => []
  | k :: ks, opq =>
    let p : Fin 8 := Fin.ofNat 8 k
    let ctl := s.reg (idMaskCtrl q.val)
    if bit ctl 2 && ((s.easel q).dormant.toList.getD st 0).getLsbD k then ⟨p, [], 3⟩ :: s.cullList q st box ks opq
    else
      let pl := s.placed p
      let f := footprint pl box s.flatNow
      let tiles := footTiles pl f
      if bit ctl 0 && tiles.all fun t => s.tileIs p 1 t.1 t.2 then ⟨p, tiles, 1⟩ :: s.cullList q st box ks opq
      else
        let covers := footInside pl f && tiles.all fun t => s.tileIs p 0 t.1 t.2
        ⟨p, tiles, if bit ctl 1 && opq then 2 else 0⟩ :: s.cullList q st box ks (opq || covers)

/-- Samples per ray that a plate costs (R73), 1 in FLAT. -/
def State.rayCost (s : State) (p : Fin 8) : Nat :=
  match (s.frontBuf p).geom with
  | none => 0
  | some g => (g.load s.flatNow (s.reg (idPlate p.val 0))).cost

/-- Pixels, or in FLAT hogels, of a strip (R178). -/
def State.stripUnits (s : State) : Nat := if s.flatNow then 32 else 8192

/-- The counts of one plate's part (R175, R183, R184); a TRANSPARENT tile of a RELIEF plate, whose depth is fetched all the same, counts as
transparent alone (log entry 150). -/
def State.countCull (s : State) (q : Fin 4) (c : Culled) : State :=
  let n := c.tiles.length
  let saved := fun (s : State) => s.addLive (idSamplesSaved q.val) (s.rayCost c.slot * s.stripUnits)
  match c.mark with
  | 0 =>
    let tr := if bit (s.reg (idMaskCtrl q.val)) 0 then (c.tiles.filter fun t => s.tileIs c.slot 1 t.1 t.2).length else 0
    (s.addLive (idTilesFetched q.val) (n - tr)).addLive (idTilesTransp q.val) tr
  | 1 => saved (s.addLive (idTilesTransp q.val) n)
  | 2 => saved (s.addLive (idTilesOccl q.val) n)
  | _ => saved s

/-- Mask and dispatch of a quadrant run: FAB is up with its clock (R534). -/
def State.maskRuns (s : State) : Bool := s.up dFab && s.locked 3

/-- SKIP_LIST (R164 to R176): Mask completes the skip list of the quadrant's next strip in raster order. -/
def execSkipList (q : Fin 4) (s : State) : Out :=
  .next (
    let e := s.easel q
    match e.strips.findIdx? fun x => x.marks.isNone with
    | none => s
    | some i =>
      match e.strips[i]? with
      | none => s
      | some x =>
        if s.maskRuns && e.st == .running then
          let cs := s.cullList q e.steer (s.stripBox q e.steer x.row x.m) s.blendNow false
          let kept := maskOf ((cs.filter fun c => c.mark == 0).map fun c => c.slot.val)
          let s := s.setEasel q { e with strips := e.strips.set i { x with marks := some (cs.map Culled.mark) }
                                         culled := e.culled &&& ~~~ BitVec.ofNat 8 kept }
          cs.foldl (fun s c => s.countCull q c) (s.addLive (idMaskStrips q.val) 1)
        else s)

/-! ### Dispatch (R177, R179) -/

/-- Engine e may take strips: its cluster is powered and has its clock (R534), and is not one that FLAT or stop 3 drops (R40, R41, R342). -/
def State.engineTakes (s : State) (e : Nat) : Bool :=
  s.up (dEc (e / 8)) && s.locked 4 && !s.loads.engHeld && (!s.flatNow || e / 8 % 3 == 0)

/-- The engines of quadrant q that may take strips, in round-robin order after the one that took the last. -/
def State.engineOrder (s : State) (q : Fin 4) : List Nat :=
  let last := (s.easel q).lastEngine
  ((List.range 24).map fun i => 24 * q.val + (last + 1 + i) % 24).filter s.engineTakes

/-- STRIP_DISPATCH (R177): the oldest strip with a skip list goes to the next engine that holds fewer than 2. Mask completes lists in
raster order, so under PANIC too the oldest incomplete row goes first (R179). -/
def execStripDispatch (q : Fin 4) (s : State) : Out :=
  .next (
    let e := s.easel q
    match e.strips.findIdx? fun x => x.marks.isSome && x.engine.isNone with
    | none => s
    | some i =>
      match e.strips[i]?, (s.engineOrder q).find? fun n => decide ((e.strips.filter fun x => x.engine == some n).length < 2) with
      | some x, some n =>
        if s.maskRuns && e.st == .running then
          s.setEasel q { e with strips := e.strips.set i { x with engine := some n }, lastEngine := n % 24 }
        else s
      | _, _ => s)

/-! ### Dormancy (R174) -/

/-- What R174 takes in of one plate of the list: its slot, its front buffer's geometry and tile flags, and whether the OPAQUE flags of an
A1 plate may be used (R164). -/
structure CullPlate where
  slot : Nat
  geom : Option Geom
  flagBase : Nat
  flags : List (Nat × Nat)
  opq : Bool
deriving DecidableEq, Repr

/-- Everything that R174 calls a cull input: the blend list with its flags, every placement (in FLAT each plate lies at Z = 0, R95), the other
registers, N, stop and divisor, the Refocus generation, and the Contact overrides on plates of the list. -/
structure CullKey where
  plates : List CullPlate
  place : List Word
  regs : List Word
  config : List Nat
  overrides : List CtRegion
deriving DecidableEq, Repr

def State.cullPlate (s : State) (k : Nat) : CullPlate :=
  let p : Fin 8 := Fin.ofNat 8 k
  let b := s.frontBuf p
  ⟨k, b.geom, b.flagBase, b.flags, s.opqUsed p⟩

/-- The placement words of slot k (R91): STEPS and registers 1 to 9. -/
def State.placeWords (s : State) (k : Nat) : List Word :=
  (s.reg (idPlate k 0) &&& 0x3000#32) :: (List.range 9).map fun r => s.reg (idPlate k (r + 1))

/-- The overrides that stand on tiles of the plates in the list (R166, R174). -/
def State.listOverrides (s : State) : List CtRegion :=
  (s.contact.overrides.filter fun o =>
    match o.2.1.plate with
    | some (p, i, _) => s.blendNow.contains p.val && i == (s.plate p).front
    | none => false).map fun o => o.2.1

def State.cullKey (s : State) : CullKey :=
  ⟨s.blendNow.map s.cullPlate, (List.range 8).flatMap s.placeWords, [s.reg idTileX, s.reg idTileY, s.reg idRayCtrl, s.reg idSteer],
    [s.rfc.genActive, s.expo.stop, b2n s.expo.d2, b2n s.flatNow], s.listOverrides⟩

/-- Every DORMANT state of quadrant q ends, and E302 reports each (R174); no plate becomes DORMANT by the sub-frame in progress. -/
def State.wakeQuad (s : State) (q : Fin 4) : State :=
  let e := s.easel q
  let l := (List.range 4).flatMap fun st => ((List.range 8).filter fun p => (e.dormant.toList.getD st 0).getLsbD p).map fun p => (st, p)
  let s := s.setEasel q { e with dormant := Vector.replicate 4 0, culled := 0 }
  l.foldl (fun s x => s.raiseN 302 (q.val + 16 * x.1 + 256 * x.2) 0) s

def State.wakePlates (s : State) : State := (List.finRange 4).foldl (fun s (q : Fin 4) => s.wakeQuad q) s

/-- The plates that the raster sub-frame that ends never kept become DORMANT for its steer state, when all its strips were
decided (R174). -/
def State.dormantEnd (s : State) (q : Fin 4) : State :=
  let e := s.easel q
  let qh := s.rf idRasterSize 15 6
  if bit (s.reg (idMaskCtrl q.val)) 2 && decide (e.nextRow = qh ∧ 0 < qh) && e.strips == [] && e.st != .aborted then
    let old := e.dormant.toList.getD e.steer 0
    let new := (List.range 8).filter fun p => e.culled.getLsbD p && !old.getLsbD p
    let s := s.setEasel q { e with dormant := e.dormant.set (e.steer % 4) (old ||| e.culled) (by omega) }
    new.foldl (fun s p => s.raiseN 301 (q.val + 16 * e.steer + 256 * p) 0) s
  else s

/-! ### The ways of the cluster caches (R174, R181) -/

/-- A division of 16 ways: the list's plates take one each; each other way goes to one of them or to the residual plane, as the firmware
chooses (f). -/
def splitWays (list : List Nat) (f : Nat → Nat) : List Nat :=
  (List.range 16).map fun i => list.getD i ((list ++ [8]).getD (f i % (list.length + 1)) 8)

/-- At a tick where the blend list changes the firmware divides the ways of each cluster cache; a way that changes hands is empty. -/
def State.divideWays (s : State) : State :=
  if !s.fw || s.caches.blend == s.blendNow then s
  else
    let base := s.fresh
    let list := s.blendNow
    { s with
      fresh := base + 192
      caches := { s.caches with
        blend := list
        clusters := Vector.ofFn fun (c : Fin 12) =>
          let x := s.caches.clusters[c]
          let ways := splitWays list fun i => (Config.freeWord (base + 16 * c.val + i)).toNat
          ⟨ways, x.lines.filter fun l => x.ways.getD l.1 9 == ways.getD l.1 9⟩ } }

/-- Is a slot DORMANT for the steer state that quadrant q's sub-frame is lit with? Its ways in the cluster caches of q are then
clock-gated, while R174 applies. -/
def State.wayGated (s : State) (q : Fin 4) (p : Nat) : Bool := bit (s.reg (idMaskCtrl q.val)) 2 && ((s.easel q).dormant.toList.getD (s.easel q).steer 0).getLsbD p

/-- The ways that are gated in quadrant q's sub-frame drop their contents. -/
def State.gateWays (s : State) (q : Fin 4) : State :=
  { s with caches := { s.caches with clusters := Vector.ofFn fun (c : Fin 12) =>
      let x := s.caches.clusters[c]
      if c.val / 3 = q.val then { x with lines := x.lines.filter fun l => !s.wayGated q (x.ways.getD l.1 9) } else x } }

/-- A cluster cache takes the block at slot address a of a plate (or 8, the residual plane): least-recently-used replacement within its
ways (R181); without a way of its own it is not kept. -/
def ClusterCache.fill (x : ClusterCache) (o a : Nat) : ClusterCache :=
  match x.lines.find? fun l => l.2 == a with
  | some l => { x with lines := l :: x.lines.erase l }
  | none =>
    let mine := (List.range 16).filter fun w => x.ways[w]? == some o
    let inSet := x.lines.filter fun l => Config.cacheSet l.2 % 512 == Config.cacheSet a % 512
    match mine.find? fun w => inSet.all fun l => l.1 != w with
    | some w => { x with lines := (w, a) :: x.lines }
    | none =>
      match (inSet.filter fun l => mine.contains l.1).getLast? with
      | some l => { x with lines := (l.1, a) :: x.lines.erase l }
      | none => x

/-- A texel cache of 256 KiB makes room: which block it drops is a free value (R181; log entry 129). -/
def texelRoom (base : Nat) : Nat → List (Nat × Nat) → List (Nat × Nat)
  | 0, _ => []
  | n + 1, l =>
    if (l.map Prod.snd).sum ≤ 262144 then l else texelRoom (base + 1) n (l.eraseIdx (Config.freeBelow base l.length))

/-- Engine n's texel cache takes n bytes of texels of the block at slot address a. -/
def State.fillTexels (s : State) (n : Fin 96) (a size : Nat) : State :=
  let l := (a, size) :: s.caches.texels[n]
  { s with fresh := s.fresh + l.length, caches := { s.caches with texels := s.caches.texels.set n (texelRoom s.fresh (l.length + 1) l) } }

/-- Cluster c loses its cache and its engines' caches with its power. -/
def State.dropCluster (s : State) (c : Fin 12) : State :=
  { s with caches := { s.caches with
    clusters := s.caches.clusters.set c { s.caches.clusters[c] with lines := [] }
    texels := Vector.ofFn fun (n : Fin 96) => if n.val / 8 = c.val then [] else s.caches.texels[n] } }

/-! ### Reach (R306) -/

/-- SMAX of R306 times 32,768: the largest |dy| bound of the widened direction boxes over the tile's regions and the steer states in
use. -/
def State.reachDir (s : State) : Nat :=
  s.regions.foldl (fun m r =>
    let rc := s.regionRec r
    let f := s.refocusNow r
    let on := s.residEn && (leAt rc 0x1C 4).testBit 0
    (List.range (2 ^ s.rf idSteer 1 0)).foldl (fun m st =>
      let b := s.boundOf r st
      let w := if s.flatNow then (0, 0) else widenDir on (leAt rc 0x1A 2) f.ody b.dy0 b.dy1
      max m (max w.1.natAbs w.2.natAbs)) m) 0

/-- G of R306: the largest vertical distance of a strip's position box from the nominal centre of its hogel row (log entry 30). -/
def State.reachPos (s : State) : Nat :=
  (List.finRange 4).foldl (fun g (q : Fin 4) =>
    (List.range (s.rf idRasterSize 15 6)).foldl (fun g row =>
      (List.range (s.rf idRasterSize 5 0)).foldl (fun g m =>
        let b := s.stripBox q 0 row m
        let c : Int := 1024 * ((row + quadBelow q * s.rf idRasterSize 15 6 : Nat) : Int) + 512 + s.tileY
        max g (max (b.v0 - c).natAbs (b.v1 - c).natAbs)) g) g) 0

/-- The firmware publishes K of every plate in force (R306). -/
def State.publishReach (s : State) : State :=
  if !s.rayMap.loaded then s
  else
    let dir := s.reachDir
    let g := s.reachPos
    (List.finRange 8).foldl (fun s (p : Fin 8) =>
      if (s.plate p).inForce then
        let z := depthRange (s.placed p) s.flatNow
        s.setReg (idCtReach p.val) (BitVec.ofNat 32 (ceilDiv (max z.1.natAbs z.2.natAbs * dir) (2 ^ 21) + g))
      else s) s

end Sys2Proof.Machine
end

