-- ==== Sys2Proof/Machine/Contact.lean ====
section
/-!
DEFINITION. The Contact engine (chapter 11): submission and its checks, order and conflicts between jobs, drawing, races with the
beam, notification and cancellation.
-/
namespace Sys2Proof.Machine

/-! ### Descriptors and surfaces (R288, R290, R291) -/

/-- A surface reference. -/
inductive CtSurf where
  | linear (esz pitch base : Nat)
  | plate (slot : Fin 8) (front : Bool) (plane : Nat)
deriving DecidableEq, Repr

/-- A surface reference, none where a reserved bit is set or ESZ is 5 to 7. -/
def ctSurf (v : Nat) : Option CtSurf :=
  if v.testBit 63 then some (.plate (Fin.ofNat 8 (v / 16 % 8)) (v.testBit 7) (v % 4))
  else if 5 ≤ v / 2 ^ 60 % 8 then none
  else some (.linear (v / 2 ^ 60 % 8) (v / 2 ^ 40 % 2 ^ 20 * 8) (v % 2 ^ 27 * 256))

structure CtDesc where
  op : Nat
  q : Fin 4
  wait : Bool
  wm : Bool
  startLine : Nat
  wmLine : Nat
  dx : Nat
  dy : Nat
  w : Nat
  h : Nat
  sx : Nat
  sy : Nat
  dst : Nat
  src : Nat
  fg : Nat
  bg : Nat
deriving DecidableEq, Repr

def ctDesc (b : List Byte) : CtDesc :=
  let c := leAt b 0 4
  { op := c % 4, q := Fin.ofNat 4 (c / 4 % 4), wait := c.testBit 4, wm := c.testBit 5
    startLine := c / 2 ^ 6 % 2 ^ 13, wmLine := c / 2 ^ 19 % 2 ^ 13
    dx := leAt b 4 2, dy := leAt b 6 2, w := leAt b 8 2, h := leAt b 0xA 2, sx := leAt b 0xC 2, sy := leAt b 0xE 2
    dst := leAt b 0x10 8, src := leAt b 0x18 8, fg := leAt b 0x20 8, bg := leAt b 0x28 8 }

/-- A surface as a job sees it: DRAM bytes with an element size in bytes (0 for one bit), a pitch and a base, or a plane of a
physical buffer. -/
inductive CtLoc where
  | bytes (e pitch base : Nat)
  | plane (slot : Fin 8) (buf : Fin 2) (pl : Plane)
deriving DecidableEq, Repr

/-- The buffer that a plate reference names now. -/
def State.ctBuf (s : State) (p : Fin 8) (front : Bool) : Fin 2 := if front then (s.plate p).front else (s.plate p).backIx

/-- A reference resolved against the buffers as they stand; none where the buffer has no such plane. -/
def State.ctLoc (s : State) (r : CtSurf) : Option CtLoc :=
  match r with
  | .linear e p b => some (.bytes (if e = 4 then 0 else 2 ^ e) p b)
  | .plate p fr n => ((s.buf p (s.ctBuf p fr)).plane n).map fun pl => .plane p (s.ctBuf p fr) pl

/-- Is a location an A1 plane, whose columns count texels (R291)? -/
def CtLoc.a1 (l : CtLoc) : Bool := match l with | .plane _ _ pl => pl.lay == .ea1 | _ => false

/-- Element size in bytes, 0 for a 1-bit LINEAR surface. -/
def CtLoc.elem (l : CtLoc) : Nat := match l with | .bytes e _ _ => e | .plane _ _ pl => layoutElem pl.lay

/-- Does an operation read a source, and is the source read bit by bit (R293)? -/
def ctReads (op : Nat) : Bool := op != 0
def ctExpands (op : Nat) : Bool := decide (2 ≤ op)

/-! ### Checks of a submission (R292, R293, R297, R298, R300) -/

/-- CT_FORMAT (R290, R293). -/
def ctFormatOk (d : CtDesc) (dst : CtLoc) (src : Option CtLoc) : Bool :=
  dst.elem != 0 &&
  (match src with
  | none => d.op == 0
  | some l =>
    if ctExpands d.op then (l.a1 || l.elem == 0) && !dst.a1
    else l.elem == dst.elem)

/-- CT_TARGET of the destination (R297, R298). -/
def State.ctDstOk (s : State) (r : CtSurf) : Bool :=
  match r with
  | .linear _ _ _ => true
  | .plate p fr _ => if fr then (s.plate p).inForce else (s.plate p).back == .opened

/-- CT_TARGET of the source (R300). -/
def State.ctSrcOk (s : State) (r : CtSurf) : Bool :=
  match r with
  | .linear _ _ _ => true
  | .plate p fr _ =>
    if fr then (s.plate p).inForce
    else (s.plate p).back == .opened || (s.plate p).back == .sealed || (s.plate p).back == .ready

/-- The column of an element and the count of elements in a row: bytes of an A1 plane for 8 texels, except as a 1-bit source. -/
def ctCol (a1 : Bool) (x : Nat) : Nat := if a1 then x / 8 else x

/-- Elements in a row: where either surface of a FILL or COPY is an A1 plane, W counts texels (R291). -/
def ctWidth (d : CtDesc) (dst : CtLoc) (src : Option CtLoc) : Nat :=
  if ctExpands d.op then d.w
  else if dst.a1 || (match src with | some l => l.a1 | none => false) then d.w / 8 else d.w

/-- CT_ALIGN of one surface (R292): its first column x and its row's width w. -/
def ctAlignOk (l : CtLoc) (x w texels : Nat) : Bool :=
  match l with
  | .bytes 0 pitch _ => pitch % 8 == 0 && decide (ceilDiv (x + w) 8 ≤ pitch)
  | .bytes e pitch _ => pitch % 64 == 0 && decide ((x + w) * e ≤ pitch)
  | .plane _ _ pl => pl.lay != .ea1 || (x % 8 == 0 && texels % 8 == 0)

/-- CT_BOUNDS of one surface (R292). -/
def ctBoundsOk (l : CtLoc) (x y w h texels : Nat) : Bool :=
  match l with
  | .bytes 0 pitch base =>
    decide (hostBase ≤ base + y * pitch + x / 8 ∧ base + (y + h - 1) * pitch + ceilDiv (x + w) 8 ≤ hostBase + hostSize)
  | .bytes e pitch base =>
    decide (hostBase ≤ base + y * pitch + x * e ∧ base + (y + h - 1) * pitch + (x + w) * e ≤ hostBase + hostSize)
  | .plane _ _ pl => decide (x + (if pl.lay = .ea1 then texels else w) ≤ pl.w ∧ y + h ≤ pl.h)

/-- The region of a rectangle for R301. -/
def ctRegion (l : CtLoc) (x y w h : Nat) : CtRegion :=
  match l with
  | .bytes 0 pitch base => ⟨none, base + y * pitch + x / 8, base + (y + h - 1) * pitch + ceilDiv (x + w) 8, 0, 1⟩
  | .bytes e pitch base => ⟨none, base + y * pitch + x * e, base + (y + h - 1) * pitch + (x + w) * e, 0, 1⟩
  | .plane p i pl =>
    let tw := layoutTexW pl.lay
    let th := layoutBh pl.lay
    ⟨some (p, i, pl.no), x / tw, ceilDiv (x + w) tw, y / th, ceilDiv (y + h) th⟩

/-- The reason for which a descriptor is refused, or its regions (R288 to R300); the order of the checks is log entry 31. -/
def State.ctCheck (s : State) (d : CtDesc) : Sum Nat (CtRegion × Bool × Option CtRegion) :=
  match ctSurf d.dst, (if ctReads d.op then (ctSurf d.src).map some else some none) with
  | some rd, some rs =>
    if d.w < 1 ∨ 16384 < d.w ∨ d.h < 1 ∨ 16384 < d.h then .inl 0x0502
    else if !s.ctDstOk rd || !(match rs with | some r => s.ctSrcOk r | none => true) then .inl 0x0504
    else
      match s.ctLoc rd, (match rs with | some r => (s.ctLoc r).map some | none => some none) with
      | some ld, some ls =>
        if !ctFormatOk d ld ls then .inl 0x0503
        else
          let w := ctWidth d ld ls
          let alignS := match ls with | some l => ctAlignOk l d.sx w d.w | none => true
          let boundS := match ls with | some l => ctBoundsOk l d.sx d.sy w d.h d.w | none => true
          if !ctAlignOk ld d.dx w d.w || !alignS then .inl 0x0501
          else if !ctBoundsOk ld d.dx d.dy w d.h d.w || !boundS then .inl 0x0502
          else
            .inr (ctRegion ld d.dx d.dy (if ld.a1 then d.w else w) d.h, (match rd with | .plate _ fr _ => fr | _ => false),
              ls.map fun l => ctRegion l d.sx d.sy (if l.a1 then d.w else w) d.h)
      | _, _ => .inl 0x0502
  | _, _ => .inl 0x0503

/-! ### Queues -/

def State.ctQ (s : State) (x : Fin 2) : CtQueue := s.contact.qs[x]
def State.setCtQ (s : State) (x : Fin 2) (v : CtQueue) : State := { s with contact := { s.contact with qs := s.contact.qs.set x v } }

/-- Change the job of a sequence number in queue x. -/
def State.setJob (s : State) (x : Fin 2) (j : CtJob) : State :=
  s.setCtQ x { s.ctQ x with jobs := (s.ctQ x).jobs.map fun k => if k.seq = j.seq then j else k }

/-- The job that has newly reached the head takes note of the raster tick in force (R303). -/
def State.ctArrive (s : State) (x : Fin 2) : State :=
  match s.ctHead x with
  | none => s
  | some j =>
    if j.headAt.isSome then s
    else s.setJob x { j with headAt := some (if s.expo.ticked then s.expo.rasterTick + 1 else 0) }

/-- Strip tokens that the quadrants hold now (R166). -/
def State.stripTokens (s : State) : List (Nat × Nat × Nat) :=
  (List.finRange 4).flatMap fun (q : Fin 4) => (s.easel q).strips.map fun x => (q.val, x.row, x.m)

/-- A strip's token has been returned. -/
def State.ctTokenBack (s : State) (q row m : Nat) : State :=
  { s with contact := { s.contact with qs := Vector.ofFn fun (x : Fin 2) =>
      { s.contact.qs[x] with jobs := s.contact.qs[x].jobs.map fun j => { j with tokens := j.tokens.erase (q, row, m) } } } }

/-- The 512-byte units of a job, by its destination (R289): a plane's blocks, or those of each row. -/
def ctUnits (d : CtDesc) (dst : CtRegion) : Nat :=
  match ctSurf d.dst with
  | some (.linear e _ _) => d.h * ceilDiv (d.w * 2 ^ e) 512
  | _ => (dst.x1 - dst.x0) * (dst.y1 - dst.y0)

/-- The write credits of a back buffer that is a destination are all in flight (R343). -/
def State.ctFull (s : State) (front : Bool) (dst : CtRegion) : Bool :=
  match dst.plate with
  | some (p, i, _) => !front && decide (65535 ≤ (s.buf p i).credits)
  | none => false

/-- CONTACT_SUBMIT (R288 to R301). A destination in a back buffer takes a write credit; one in a front buffer starts the Mask override
of R166, which ends every DORMANT state when its slot is in the blend list (R174). -/
def execContactSubmit (c : Cmd) (s : State) : Out :=
  .next (if s.mayStart c 0x0501 then
    let x : Fin 2 := Fin.ofNat 2 c.queue
    let d := ctDesc c.payload
    if !s.active || !s.contact.accepting then s.refuse c 0x0506
    else if 32 ≤ (s.ctQ x).jobs.length then s.refuse c 0x0505
    else
      match s.ctCheck d with
      | .inl r => s.refuse c r
      | .inr (dst, front, src) =>
        if s.ctFull front dst then s
        else
          let q := s.ctQ x
          let ord := s.contact.nextOrder
          let j : CtJob :=
            { seq := q.nextSeq, desc := c.payload, order := ord, dst := dst, dstFront := front, src := src
              tokens := if front then s.stripTokens else [], started := false, left := ctUnits d dst, complete := false, headAt := none, passed := false
              ticks := 0, wmTicks := 0, fault := false, waitExp := false, wmExp := false, demoted := false }
          let s := (s.setCtQ x { nextSeq := (q.nextSeq + 1) % 2 ^ 32, jobs := q.jobs ++ [j] }).issue (41 + x.val) 1
          let s := { s with contact := { s.contact with nextOrder := ord + 1 } }
          let s := s.ctArrive x
          let s := match dst.plate with
            | none => s
            | some (p, i, _) =>
              if front then
                let s := { s with contact := { s.contact with overrides := s.contact.overrides ++ [(ord, dst, false)] } }
                if s.blendNow.contains p.val then s.wakePlates else s
              else s.takeCredit p i 1
          s.done c (leBytes 4 j.seq)
  else s)

/-- CONTACT_STATUS (R403): the places are log entry 32: STATE, entries, SEQ_DONE, and the next sequence number. -/
def execContactStatus (c : Cmd) (s : State) : Out :=
  .next (if s.mayStart c 0x0502 then
    if h : c.arg 0 1 < 2 then
      let x : Fin 2 := ⟨c.arg 0 1, h⟩
      s.done c (leBytes 1 (s.ctState x) ++ leBytes 1 (s.ctQ x).jobs.length ++ [0, 0] ++ leBytes 4 (s.reg (idCtDone x.val)).toNat
        ++ leBytes 4 (s.ctQ x).nextSeq)
    else s.refuse c 0x0108
  else s)

/-! ### Start (R289, R301, R303) -/

/-- CONTACT_JOB_START: the head job starts once no earlier job conflicts with it and its start line has been passed or its wait has
expired. -/
def execContactJobStart (x : Fin 2) (s : State) : Out :=
  .next (
    match s.ctHead x with
    | none => s
    | some j =>
      if s.maskRuns && s.contact.accepting && !j.started && !s.ctConflicts j && (!(ctDesc j.desc).wait || j.passed) then
        s.setJob x { j with started := true }
      else s)

/-! ### Notification (R304) -/

/-- The flags of a completion in CAP_HI (log entry 33). -/
def CtJob.flags (j : CtJob) : Nat := b2n j.fault + 2 * b2n j.waitExp + 4 * b2n j.wmExp + 8 * b2n j.demoted

/-- Notify a job: SEQ_DONE, the queue entry, E480 or E481. -/
def State.ctNotify1 (s : State) (x : Fin 2) (j : CtJob) (more : Nat) : State :=
  let q := s.ctQ x
  let s := s.setCtQ x { q with jobs := q.jobs.filter fun k => k.seq != j.seq }
  let s := (s.setReg (idCtDone x.val) (BitVec.ofNat 32 j.seq)).giveBack (41 + x.val) 1
  s.raiseN (480 + x.val) j.seq (j.flags + more)

/-- Notify the jobs at the front of queue x whose notification is due, in sequence order. -/
def State.ctNotify (x : Fin 2) : Nat → State → State
  | 0, s => s
  | n + 1, s =>
    match (s.ctQ x).jobs.head? with
    | none => s
    | some j => if j.complete && j.passed then State.ctNotify x n (s.ctNotify1 x j 0) else s

def State.ctNotifyAll (s : State) (x : Fin 2) : State := State.ctNotify x (s.ctQ x).jobs.length s

/-- The raster of quadrant q has passed line y in the sub-frame of tick k (R241, R303, R304). -/
def State.ctPass (s : State) (q : Fin 4) (y k : Nat) : State :=
  (List.finRange 2).foldl (fun s (x : Fin 2) =>
    let h := (s.ctHead x).map CtJob.seq
    let mark (j : CtJob) : CtJob :=
      let d := ctDesc j.desc
      if d.q ≠ q then j
      else if j.complete then (if d.wm && d.wmLine == y then { j with passed := true } else j)
      else if some j.seq = h ∧ d.wait ∧ d.startLine = y ∧ (j.headAt.any fun t => decide (t ≤ k)) then
        { j with passed := true }
      else j
    let s := s.setCtQ x { s.ctQ x with jobs := (s.ctQ x).jobs.map mark }
    s.ctNotifyAll x) s

/-- What a tick does for the waits (R303, R304): it counts for a head job that waits and for complete jobs that wait for their
watermark. -/
def State.ctTick (s : State) : State :=
  (List.finRange 2).foldl (fun s (x : Fin 2) =>
    let h := (s.ctHead x).map CtJob.seq
    let upd (j : CtJob) : CtJob :=
      if j.complete then (if j.passed then j else { j with wmTicks := j.wmTicks + 1 })
      else if h = some j.seq ∧ j.started = false ∧ (ctDesc j.desc).wait ∧ j.passed = false then { j with ticks := j.ticks + 1 }
      else j
    s.setCtQ x { s.ctQ x with jobs := (s.ctQ x).jobs.map upd }) s

/-- CT_WAIT_EXPIRED (R303, R304): after WAIT_LIMIT ticks a head job may start anyway, with E482; a complete job is notified. -/
def execCtWaitExpired (x : Fin 2) (s : State) : Out :=
  .next (
    if s.maskRuns then
      let lim := s.rf idCtCtrl 15 0
      let due := (s.ctQ x).jobs.any fun j => !j.complete && !j.passed && decide (lim ≤ j.ticks) && decide (0 < j.ticks)
      let upd (j : CtJob) : CtJob :=
        if j.passed then j
        else if j.complete then (if lim ≤ j.wmTicks ∧ 0 < j.wmTicks then { j with passed := true, wmExp := true } else j)
        else if lim ≤ j.ticks ∧ 0 < j.ticks then { j with passed := true, waitExp := true }
        else j
      let s := s.setCtQ x { s.ctQ x with jobs := (s.ctQ x).jobs.map upd }
      let s : State := if due then s.raiseN 482 0 0 else s
      s.ctNotifyAll x
    else s)

/-! ### Drawing (R293 to R299, R307) -/

/-- A job's surfaces as bound at acceptance. -/
def State.ctBound (s : State) (r : CtSurf) (g : CtRegion) : Option CtLoc :=
  match r, g.plate with
  | .linear e p b, _ => some (.bytes (if e = 4 then 0 else 2 ^ e) p b)
  | .plate _ _ _, some (p, i, n) => ((s.buf p i).plane n).map fun pl => .plane p i pl
  | _, none => none

/-- A byte of a LINEAR source: zero where its beat is poisoned (log entry 34). -/
def State.ctByte (s : State) (a : Nat) : Byte := if s.clean a 1 then s.dramByte a else 0

/-- The element at column x (bytes for A1) and row y of a surface, as raw bits; an undeliverable block reads zero (R307). -/
def State.ctElem (s : State) (l : CtLoc) (x y : Nat) : Nat :=
  match l with
  | .bytes e pitch base => leNat ((List.range e).map fun k => s.ctByte (base + y * pitch + x * e + k))
  | .plane _ _ pl =>
    let bw := layoutBw pl.lay
    let bh := layoutBh pl.lay
    let raw := (s.readPlane pl (y / bh * blocksAcross pl.lay pl.w + x / bw)).orZero
    leAt raw ((y % bh * bw + x % bw) * layoutElem pl.lay) (layoutElem pl.lay)

/-- Bit (x, y) of a 1-bit source (R293). -/
def State.ctBit (s : State) (l : CtLoc) (x y : Nat) : Bool :=
  match l with
  | .bytes _ pitch base => (s.ctByte (base + y * pitch + x / 8)).getLsbD (7 - x % 8)
  | .plane _ _ pl => elementAt .ea1 (s.readPlane pl (blockOf pl.lay pl.w x y)).orZero x y == 1

/-- What a job writes to the destination element (x, y), both counted from the rectangle's corner; none leaves it (R294). -/
def State.ctNew (s : State) (d : CtDesc) (src : Option CtLoc) (e x y : Nat) : Option Nat :=
  match src with
  | none => some (d.fg % 256 ^ e)
  | some l =>
    if ctExpands d.op then
      if s.ctBit l (d.sx + x) (d.sy + y) then some (d.fg % 256 ^ e) else if d.op = 2 then some (d.bg % 256 ^ e) else none
    else some (s.ctElem l (ctCol l.a1 d.sx + x) (d.sy + y))

/-- The bytes of the rows that a job reads from a LINEAR source: the first address and the length of row y of the rectangle. -/
def ctSpan (d : CtDesc) (w e pitch base y : Nat) : Nat × Nat :=
  let lo := if e = 0 then d.sx / 8 else d.sx * e
  let hi := if e = 0 then ceilDiv (d.sx + w) 8 else (d.sx + w) * e
  (base + (d.sy + y) * pitch + lo, hi - lo)

/-- Does a byte of a LINEAR destination belong to the bytes that the source reads (R296)? -/
def ctShared (d : CtDesc) (src : Option CtLoc) (w a : Nat) : Bool :=
  match src with
  | some (.bytes e pitch base) => (List.range d.h).any fun y =>
      let r := ctSpan d w e pitch base y
      inRange r.1 r.2 a
  | _ => false

/-- Bytes of a LINEAR destination from address a on; a byte that two different LINEAR surfaces share takes a free value (R296). -/
def State.ctBytes (shared : Nat → Bool) : Nat → List (Option Byte) → State → State × List (Option Byte)
  | _, [], s => (s, [])
  | a, b :: bs, s =>
    let f := if b.isSome && shared a then (s.free.2, some (s.free.1.setWidth 8)) else (s, b)
    let r := State.ctBytes shared (a + 1) bs f.1
    (r.1, f.2 :: r.2)

/-- Draw into a LINEAR destination, row by row; `s0` is the state that the source is read from (R295). -/
def State.ctLinear (s s0 : State) (d : CtDesc) (src : Option CtLoc) (same : Bool) (w e pitch base : Nat) : State :=
  let shared := fun a => !same && ctShared d src w a
  (List.range d.h).foldl (fun s y =>
    let a := base + (d.dy + y) * pitch + d.dx * e
    let row := (List.range w).flatMap fun x =>
      match s0.ctNew d src e x y with
      | none => List.replicate e none
      | some v => (leBytes e v).map some
    let r := State.ctBytes shared a row s
    r.1.storeSome .contact a r.2) s

/-- One block of a plate destination (R299): whether it was read, its old bytes as delivered, and its new bytes. -/
def State.ctBlock (s0 : State) (d : CtDesc) (src : Option CtLoc) (pl : Plane) (x0 w bx by_ : Nat) : Bool × Delivered × List Byte :=
  let bw := layoutBw pl.lay
  let bh := layoutBh pl.lay
  let e := layoutElem pl.lay
  let inside (x y : Nat) : Bool := decide (x0 ≤ x ∧ x < x0 + w ∧ d.dy ≤ y ∧ y < d.dy + d.h)
  let whole := inside (bx * bw) (by_ * bh) && inside (bx * bw + bw - 1) (by_ * bh + bh - 1) && d.op != 3
  let old := s0.readPlane pl (by_ * blocksAcross pl.lay pl.w + bx)
  let raw := (List.range bh).flatMap fun j => (List.range bw).flatMap fun i =>
    let x := bx * bw + i
    let y := by_ * bh + j
    let keep := ((if whole then [] else old.orZero).drop ((j * bw + i) * e)).take e
    if inside x y then
      match s0.ctNew d src e (x - x0) (y - d.dy) with
      | none => keep
      | some v => leBytes e v
    else keep
  (!whole, old, raw)

/-- The events of an undeliverable block met by the Contact Developer (R208). -/
def State.ctLost (s : State) (dl : Delivered) (a : Nat) : State :=
  match dl with
  | .bytes _ => s
  | .invalid => (s.addCtr idCtFault 1).raiseN 321 a (a / 2 ^ 32)
  | .uncorr => (s.addCtr idCtFault 1).raiseN 322 a (a / 2 ^ 32)

/-- Positions 0 to n - 1 in walking order (R295). -/
def ctWalk (back : Bool) (n : Nat) : List Nat := if back then (List.range n).reverse else List.range n

/-- Draw into a plate plane: answers the state and whether a block was undeliverable. -/
def State.ctPlate (s s0 : State) (d : CtDesc) (src : Option CtLoc) (w : Nat) (p : Fin 8) (i : Fin 2) (pl : Plane) (g : CtRegion) :
    State × Bool :=
  let x0 := ctCol (pl.lay == .ea1) d.dx
  let rows := (ctWalk (d.op == 1 && decide (d.sy < d.dy)) (g.y1 - g.y0)).map fun k => g.y0 + k
  let cols := (ctWalk (d.op == 1 && decide (d.sx < d.dx)) (g.x1 - g.x0)).map fun k => g.x0 + k
  (rows.flatMap fun y => cols.map fun x => (x, y)).foldl (fun (acc : State × Bool) b =>
    let blk := b.2 * blocksAcross pl.lay pl.w + b.1
    let r := s0.ctBlock d src pl x0 w b.1 b.2
    let s := if r.1 then ((acc.1.addCtr idCtRmw 1).devRead .contact (pl.addr + 512 * blk) (pl.ent + 2 * blk)).ctLost r.2.1
        (pl.addr + 512 * blk)
      else acc.1
    ((s.fixStore p i pl blk r.2.2).addCtr idCtStored 1, acc.2 || (r.1 && !r.2.1.ok))) (s, false)

/-- The source is read: blocks of a plate, rows of a LINEAR surface. Its blocks and beats that cannot be delivered are faults (R307). -/
def State.ctSource (s s0 : State) (d : CtDesc) (w : Nat) (src : Option CtLoc) (g : Option CtRegion) : State × Bool :=
  match src, g with
  | some (.plane _ _ pl), some r =>
    ((List.range (r.y1 - r.y0)).flatMap fun y => (List.range (r.x1 - r.x0)).map fun x => (r.x0 + x, r.y0 + y)).foldl
      (fun (acc : State × Bool) b =>
        let blk := b.2 * blocksAcross pl.lay pl.w + b.1
        let dl := s0.readPlane pl blk
        ((acc.1.devRead .contact (pl.addr + 512 * blk) (pl.ent + 2 * blk)).ctLost dl (pl.addr + 512 * blk), acc.2 || !dl.ok)) (s, false)
  | some (.bytes e pitch base), some _ =>
    let spans := (List.range d.h).map (ctSpan d w e pitch base)
    let bad := (s0.dmc.poison.filter fun e => spans.any fun r => decide (r.1 < 8 * e.1 + 8 ∧ 8 * e.1 < r.1 + r.2)).length
    (((spans.foldl (fun s r => s.access .contact r.1 r.2) s)).addCtr idCtFault bad, decide (0 < bad))
  | _, _ => (s, false)

/-- Do two references name the same surface (R296)? -/
def ctSame (a b : CtSurf) : Bool := a == b

/-- The stores of a job (R294 to R299): the state, and whether a block was undeliverable. -/
def State.ctDraw (s : State) (j : CtJob) : State × Bool :=
  let d := ctDesc j.desc
  let rs := if ctReads d.op then ctSurf d.src else none
  match ctSurf d.dst with
  | none => (s, false)
  | some rd =>
    let ls := match rs, j.src with | some r, some g => s.ctBound r g | _, _ => none
    match s.ctBound rd j.dst with
    | none => (s, false)
    | some ld =>
      let w := ctWidth d ld ls
      let a := s.ctSource s d w ls j.src
      match ld with
      | .bytes e pitch base => (a.1.ctLinear s d ls (rs == some rd) w e pitch base, a.2)
      | .plane p i pl => let r := a.1.ctPlate s d ls w p i pl j.dst; (r.1, a.2 || r.2)

/-- Do the Fixers hold blocks of the job's plate planes that are no longer being assembled? The job's own accesses then wait behind them
(R199, R207). -/
def State.ctBehind (s : State) (j : CtJob) : Bool :=
  let held (g : CtRegion) : Bool :=
    match g.plate with
    | none => false
    | some (p, i, n) => ((s.buf p i).plane n).any s.planeHeld
  held j.dst || j.src.any held

/-- The job's accesses have their tokens, its destination a write credit, and no read of a block of its destination is in progress (R207,
R316, R343). -/
def State.ctRoom (s : State) (j : CtJob) : Bool :=
  let room (g : CtRegion) : Bool :=
    match g.plate with
    | none => s.room .contact g.x0 (g.x1 - g.x0)
    | some (p, i, n) => ((s.buf p i).plane n).all fun pl => s.planeRoom .contact pl
  room j.dst && j.src.all room &&
  (match j.dst.plate with
    | none => true
    | some (p, i, n) => decide ((s.buf p i).credits < 65535) && ((s.buf p i).plane n).all fun pl => !s.readsIn pl.addr (pl.addr + 512 * pl.blocks))

/-- The running job of queue x, when nothing holds it up: into a front buffer the strip tokens held at acceptance are back (R166). -/
def State.ctRuns (s : State) (x : Fin 2) : Option CtJob :=
  (s.ctHead x).filter fun j => s.maskRuns && s.dmcRuns && j.started && j.tokens == [] && !s.ctBehind j && s.ctRoom j

/-- The engine has given the other queue's running job as many units as this one's (R289). -/
def State.ctShare (s : State) (x : Fin 2) (n : Nat) : State :=
  match s.ctRuns x with
  | none => s
  | some j => s.setJob x { j with left := j.left - n }

/-- CONTACT_JOB_COMPLETE (R289, R302, R307): the running job's stores are made and it is complete. The two queues' jobs take turns of one unit,
so that one with more units left than the other's is not complete yet. -/
def execContactJobComplete (x : Fin 2) (s : State) : Out :=
  .next (
    match s.ctRuns x with
    | none => s
    | some j =>
      if (s.ctRuns (1 - x)).all fun k => decide (j.left ≤ k.left) then
        let s := s.ctShare (1 - x) j.left
        let r := s.ctDraw j
        let s := if r.2 then r.1.raiseN 483 0 0 else r.1
        let demoted := match j.dst.plate with
          | some (p, i, _) => j.dstFront && ((s.plate p).front != i || !(s.plate p).inForce)
          | none => false
        let s := s.setJob x { j with complete := true, fault := r.2, passed := !(ctDesc j.desc).wm, demoted := j.demoted || demoted }
        let s := s.addCtr idCtJobs 1
        let s := { s with contact := { s.contact with overrides := s.contact.overrides.map fun (o : Nat × CtRegion × Bool) =>
          if o.1 = j.order then (o.1, o.2.1, true) else o } }
        let s := match j.dst.plate with
          | some (p, i, _) => if j.dstFront then s else (s.dropCredit p i 1).evalReady p
          | none => s
        (s.ctArrive x).ctNotifyAll x
      else s)

/-! ### Ticks and cancellation -/

/-- The overrides of complete jobs end at the first tick after their completion (R166). -/
def State.ctOverrides (s : State) : State :=
  { s with contact := { s.contact with overrides := s.contact.overrides.filter fun o => !o.2.2 } }

/-- Contact stops accepting jobs, and starts none: running jobs complete (R308). -/
def State.ctStop (s : State) : State := { s with contact := { s.contact with accepting := false } }

/-- Does a running job still have stores to make? -/
def State.ctBusy (s : State) : Bool := s.contact.qs.toList.any fun q => q.jobs.any fun j => j.started && !j.complete

/-- The queues are emptied once no job runs (R308): a complete job is notified as it is; every other one with the CANCELLED flag, and it
writes nothing; for those E484 is raised. Their overrides end at the next tick (R166). -/
def State.ctCancel (s : State) : State :=
  let s := s.ctStop
  let cancelled := s.contact.qs.toList.any fun q => q.jobs.any fun j => !j.complete
  let s := (List.finRange 2).foldl (fun s (x : Fin 2) =>
    (s.ctQ x).jobs.foldl (fun s j =>
      let s := match j.dst.plate with
        | some (p, i, _) => if j.dstFront || j.complete then s else (s.dropCredit p i 1).evalReady p
        | none => s
      s.ctNotify1 x j (if j.complete then 0 else 16)) s) s
  let s := { s with contact := { s.contact with overrides := s.contact.overrides.map fun (o : Nat × CtRegion × Bool) => (o.1, o.2.1, true) } }
  if cancelled then s.raiseN 484 0 0 else s

end Sys2Proof.Machine
end

