-- ==== Sys2Proof/Machine/Link.lean ====
section
/-!
DEFINITION. The blocks of the Yelun Panel Link (R259 to R265): control and data blocks, packets, the scrambler of a lane, and the filling of a
port's block slots with a row of blocks, one a lane.
-/
namespace Sys2Proof.Machine

/-! ### Blocks (R260, R261) -/

/-- A control block of a type with its fields. -/
def ctlBlk (typ : Nat) (fields : List Byte) : LinkBlk := ⟨true, padTo 8 (leBytes 1 typ ++ fields)⟩

def idleBlk : LinkBlk := ctlBlk 0x1E []
def alignBlk (l n lane : Nat) : LinkBlk := ctlBlk 0x2D (leBytes 1 lane ++ leBytes 1 l ++ leBytes 2 n)
def msgBlk (code : Nat) (fields : List Byte) : LinkBlk := ctlBlk 0x4B (leBytes 1 code ++ fields)
def tsBlk (l rate lane : Nat) : LinkBlk := ctlBlk 0x55 (leBytes 1 lane ++ leBytes 1 l ++ leBytes 1 rate ++ List.replicate 4 0x4A)

/-- A packet (R261, R263, R265): PKT_START, the payload in data blocks, and PKT_END with the CRC over bytes 1 to 7 of PKT_START and the
payload. -/
def packetBlks (typ slice y seq : Nat) (payload : List Byte) : List LinkBlk :=
  let head := leBytes 1 typ ++ leBytes 1 slice ++ leBytes 2 y ++ leBytes 2 payload.length ++ leBytes 1 seq
  ctlBlk 0x78 head :: ((chunks 8 (payload.length / 8) payload).map fun b => ⟨false, b⟩) ++
    [ctlBlk 0x87 (leBytes 4 (crc32 (head ++ payload)).toNat)]

/-! ### The scrambler (R260) -/

/-- 32 bits through the scrambler x^58 + x^39 + 1. Bit 57 of the state is the scrambled bit before, bit 0 the one 58 bits ago; so bit k of the
output is input bit k with the scrambled bits 39 and 58 before it, which for k < 39 all stand in the state. -/
def scramble32 (h : BitVec 58) (x : BitVec 32) : BitVec 58 × BitVec 32 :=
  let y := x ^^^ (h >>> 19).setWidth 32 ^^^ h.setWidth 32
  ((h >>> 32) ||| (y.setWidth 58 <<< 26), y)

/-- A lane sends a block: the sync header is 0b01 for data and 0b10 for control, and only the payload is scrambled, byte 0 first and each
byte least significant bit first. -/
def Lane.put (x : Lane) (b : LinkBlk) : Lane :=
  let w := BitVec.ofNat 64 (leNat b.bytes)
  let lo := scramble32 x.scr (w.setWidth 32)
  let hi := scramble32 lo.1 ((w >>> 32).setWidth 32)
  ⟨hi.1, ⟨if b.ctl then 2 else 1, lo.2.setWidth 64 ||| (hi.2.setWidth 64 <<< 32)⟩ :: x.sent⟩

/-! ### Rows of a port (R259, R262) -/

/-- Gb/s of a rate code of PL_q.CTRL. -/
def rateGbps (code : Nat) : Nat := match code with | 0 => 16 | 1 => 24 | _ => 32

/-- One block slot: lane i of the used lanes sends f i; the others are idle. -/
def Port.putRow (p : Port) (f : Nat → LinkBlk) : Port :=
  { p with clk := { p.clk with slots := p.clk.slots + 1, aligned := p.clk.aligned + 1 }
           lanes := Vector.ofFn fun (i : Fin 12) => if i.val < p.clk.l then p.lanes[i].put (f i.val) else p.lanes[i] }

/-- An ALIGN row for line period n. -/
def Port.putAlign (p : Port) (n : Nat) : Port :=
  let p := p.putRow (alignBlk p.clk.l n)
  { p with clk := { p.clk with aligned := 0 } }

/-- The rows of a stream on w lanes, striped: block k goes to lane k mod w in row k / w (R262). -/
def streamRows (w : Nat) (l : List LinkBlk) : List LinkRow :=
  (List.range (ceilDiv l.length w)).map fun r => .blocks ((l.drop (r * w)).take w)

/-- A row takes its slot; lanes that it leaves carry IDLE (R262). -/
def Port.putDue (p : Port) (r : LinkRow) : Port :=
  match r with
  | .align n => p.putAlign n
  | .blocks l => p.putRow fun i => l.getD i idleBlk

/-- Line period n has begun: its ALIGN row and a stream behind it take the slots to come (R262). -/
def Port.period (p : Port) (n : Nat) (l : List LinkBlk) : Port :=
  { p with due := p.due ++ .align n :: streamRows (max 1 p.clk.l) l }

/-- Does slot k begin less than 100 µs after training started? A slot is 66 bits at G Gb/s. -/
def LaneClock.inTs (c : LaneClock) : Bool := decide (66 * c.slots < 100000 * rateGbps c.rate)

/-- A slot with nothing to send: TS in the first 100 µs of training (R270); with `rows`, in training and in the tail, an ALIGN row after 255
slots without one (R262, log entry 130); else IDLE. -/
def Port.putIdle (p : Port) (rows : Bool) (lt : Nat) : Port :=
  if (p.st == .train || p.st == .retrain) && p.clk.inTs then
    let p := p.putRow (tsBlk p.clk.l p.clk.rate)
    { p with clk := { p.clk with aligned := 255 } }
  else if rows && decide (255 ≤ p.clk.aligned) then p.putAlign (Config.alignPeriod p.clk.slots % max 1 lt)
  else p.putRow fun _ => idleBlk

/-- n slots: the rows that are due, then nothing to send. -/
def Port.fill (rows : Bool) (lt : Nat) : Nat → Port → Port
  | 0, p => p
  | n + 1, p =>
    match p.due with
    | [] => Port.fill rows lt n (p.putIdle rows lt)
    | r :: rest => Port.fill rows lt n ({ p with due := rest }.putDue r)

/-- Slots that have passed since training started. -/
def LaneClock.passed (c : LaneClock) (now : Nat) : Nat :=
  match c.since with
  | none => 0
  | some t => (now - t) * 4 * rateGbps c.rate / 66

/-- The slots that have passed are filled. -/
def Port.catchUp (p : Port) (now : Nat) (rows : Bool) (lt : Nat) : Port :=
  if p.clk.since.isNone then p else Port.fill rows lt (p.clk.passed now - p.clk.slots) p

/-- Has the PKT_END block of the last line's last packet entered its serialiser (R266)? -/
def Port.lineOut (p : Port) (now : Nat) : Bool :=
  match p.clk.endSlot with
  | none => false
  | some n => p.clk.since.isNone || decide (n ≤ p.clk.passed now)

/-- The stream of the line period in progress is cut off: a line that is not out stays unsent (R246, R266, R271). -/
def Port.cut (p : Port) (now : Nat) : Port :=
  { p with due := [], clk := { p.clk with endSlot := if p.lineOut now then some 0 else none } }

/-- Training starts on L lanes at a rate (R270): the scramblers start from all ones. -/
def Port.laneStart (p : Port) (now l rate : Nat) : Port :=
  let p := p.cut now
  { p with clk := ⟨some now, l, rate, 0, 255, p.clk.endSlot⟩, lanes := p.lanes.map fun x => { x with scr := BitVec.allOnes 58 } }

/-- The lanes fall silent. -/
def Port.laneStop (p : Port) (now : Nat) : Port :=
  let p := p.cut now
  { p with clk := { p.clk with since := none } }

end Sys2Proof.Machine
end

