-- ==== Sys2Proof/Machine/Raster.lean ====
section
/-!
DEFINITION. The raster of a quadrant: the composite of a strip (chapter 5), the correction of a line (chapter 8), lead, urgency and
underruns, Loupe, the line stream and the gate pins (chapters 9 and 10), and the rows LINE_PERIOD_START, LINE_SENT and
STRIP_DELIVERED.
-/
namespace Sys2Proof.Machine

/-! ### Geometry and clocks -/

def State.qw (s : State) : Nat := s.rf idRasterSize 5 0
def State.qh (s : State) : Nat := s.rf idRasterSize 15 6
def State.vblank (s : State) : Nat := s.rf idRasterSize 26 16
/-- Lt of R235. -/
def State.lt (s : State) : Nat := 16 * s.qh + s.vblank

/-- EASEL_CLK cycles at a time (1.2 GHz in units of 4 ns). -/
def easelCyc (t : Nat) : Nat := t * 24 / 5

/-- The Easel of quadrant q has power and clock (R534). -/
def State.easelRuns (s : State) (q : Fin 4) : Bool := s.up (dEasel q.val) && s.locked (6 + q.val)

/-! ### Texels (R112 to R116, R161, R162, R173) -/

def State.decodeCtl (s : State) (p : Fin 8) : DecodeCtl :=
  let c := s.reg (idPlate p.val 0)
  let rg := s.reg (idPlate p.val 10)
  let ba := s.reg (idPlate p.val 11)
  ⟨bit c 11, bit c 10, bit c 9, bit c 8, fld rg 15 0, fld rg 31 16, fld ba 15 0, fld ba 31 16⟩

/-- The element of plane n at (x, y) of the plane, none where its block cannot be delivered. -/
def State.planeElem (s : State) (pl : Plane) (x y : Nat) : Option Nat :=
  match s.readPlane pl (blockOf pl.lay pl.w x y) with
  | .bytes b => some (elementAt pl.lay b x y)
  | _ => none

/-- The tap at atlas texel (x, y) of slot p for quadrant q: a TRANSPARENT tile is not fetched under TRANSP_EN. -/
def State.tapAt (s : State) (q : Fin 4) (p : Fin 8) (x y : Nat) : Tap :=
  let b := s.frontBuf p
  match b.geom with
  | none => tapOut
  | some g =>
    let el (n x y : Nat) : Option Nat := match b.plane n with | none => some 0 | some pl => s.planeElem pl x y
    let depth := if g.typ = 1 && !s.flatNow && (s.placed p).steps != 0 then el 3 x y else some 0xFFFF
    if bit (s.reg (idMaskCtrl q.val)) 0 && s.tileIs p 1 (x % g.w / 64) (y % g.h / 64) then ⟨rgba0, depth.getD 0xFFFF⟩
    else
      match el 0 x y, (if g.fmt = 3 then el 1 (x / 2) (y / 2) else some 0), (if g.fmt = 3 ∧ g.a8 then (el 2 x y).map some else some none),
          depth with
      | some e, some c, some a, some d => ⟨decodeTexel g.fmt (s.decodeCtl p) e c a, d⟩
      | _, _, _, _ => tapOut

/-! ### A strip's pixels (R129 to R160) -/

/-- The ray of tile pixel (px, py) by the tables of cluster c (R129); an undeliverable residual byte reads 0 (R162). -/
def State.rayAt (s : State) (c : Fin 12) (st px py : Nat) : Ray :=
  let r := 32 * (py / 1024) + px / 1024
  let f := mapGet (fun _ => rfIdentity) (s.rfcTab c true).entries r
  let res := if s.residEn then (s.planeElem s.residPlane px py).getD 0 else 0
  rayOf (s.regionRec r) f st s.residEn res s.tileX s.tileY px py

def State.rayAtFlat (s : State) (c : Fin 12) (hx hy : Nat) : Ray :=
  let r := 32 * (hy / 64) + hx / 64
  rayFlat (s.regionRec r) (mapGet (fun _ => rfIdentity) (s.rfcTab c true).entries r) s.tileX s.tileY hx hy

/-- The composite for a ray along the blend list with a strip's marks: a marked plate is not sampled (R171, R172). -/
def State.compositeAt (s : State) (q : Fin 4) (marks : List Nat) (r : Ray) : Comp :=
  composite ((s.blendNow.zip marks).map fun e _ =>
    let p : Fin 8 := Fin.ofNat 8 e.1
    if e.2 ≠ 0 then (rgba0, 0, 0)
    else if s.flatNow then samplePlateFlat (s.placed p) (s.tapAt q p) r
    else samplePlate (s.placed p) (s.tapAt q p) r) comp0

/-- What a pattern of R511 puts in place of a composite; what the spec does not give of it comes from the free words f. -/
def patternPixel (p : Pattern) (st : Nat) (f g : Word) : Rgba :=
  match p.code with
  | 1 => ⟨p.r, p.g, p.b, fld f 15 0⟩
  | 4 => ⟨st * 21845 % 65536, st * 21845 % 65536, st * 21845 % 65536, fld f 15 0⟩
  | _ => ⟨fld f 15 0, fld f 31 16, fld g 15 0, fld g 31 16⟩

/-- Is a pattern shown on quadrant q? -/
def State.patterned (s : State) (q : Fin 4) : Bool := s.expo.pattern.code != 0 && s.expo.pattern.quads.testBit q.val

/-- Key of a line-buffer pixel. -/
def pixKey (y x : Nat) : Nat := y % 64 * 16384 + x

def putPixel (m : List (Nat × Rgba)) (y x : Nat) (c : Rgba) : List (Nat × Rgba) := mapSet (fun _ => rgba0) m (pixKey y x) c

/-- The free words of pixel number i of a patterned strip: two a pixel. -/
def freePair (base i : Nat) : Word × Word := (Config.freeWord (base + 2 * i), Config.freeWord (base + 2 * i + 1))

/-- The units of a strip: the place (x, y) in the quadrant of each pixel, or of each hogel's first pixel in FLAT. -/
def State.stripPlaces (s : State) (row m : Nat) : List (Nat × Nat) :=
  if s.flatNow then (List.range 32).map fun i => (512 * m + 16 * i, 16 * row)
  else (List.range 16).flatMap fun j => (List.range 512).map fun i => (512 * m + i, 16 * row + j)

/-- Deliver a strip's values into the line buffer and count its samples (R159, R160, R163, R239). Samples count at delivery, those of an
abandoned strip not at all, and under a pattern of R511 as without one (log entry 148). -/
def State.paintStrip (s : State) (q : Fin 4) (c : Fin 12) (row m : Nat) (marks : List Nat) : State :=
  let e := s.easel q
  let x0 := quadRight q * 512 * s.qw
  let y0 := quadBelow q * 16 * s.qh
  let flat := s.flatNow
  let base := s.fresh
  let r := (s.stripPlaces row m).foldl (fun (acc : List (Nat × Rgba) × Nat × Nat × Nat × Nat) pt =>
    let px := x0 + pt.1
    let py := y0 + pt.2
    let v := s.compositeAt q marks (if flat then s.rayAtFlat c (px / 16) (py / 16) else s.rayAt c e.steer px py)
    let f := freePair base acc.2.2.2.2
    let col := if s.patterned q then patternPixel s.expo.pattern e.steer f.1 f.2 else v.c
    let buf := if flat
      then (List.range 16).foldl (fun b j => (List.range 16).foldl (fun b i => putPixel b (pt.2 + j) (pt.1 + i) col) b) acc.1
      else putPixel acc.1 pt.2 pt.1 col
    (buf, acc.2.1 + v.samples, acc.2.2.1 + v.misses, acc.2.2.2.1 + b2n v.early, acc.2.2.2.2 + 1)) (e.buf, 0, 0, 0, 0)
  let s := s.setEasel q { e with buf := r.1 }
  let s := if s.patterned q then { s with fresh := base + 2 * r.2.2.2.2 } else s
  ((s.addLive (idSamples q.val) r.2.1).addLive (idMiss q.val) r.2.2.1).addLive (idEarly q.val) r.2.2.2.1

/-! ### Lead and urgency (R242, R243) -/

/-- The first incomplete hogel row, none when every row is complete. -/
def State.firstRow (s : State) (q : Fin 4) : Option Nat :=
  let e := s.easel q
  match e.rows.find? fun r => r.2 != 2 ^ s.qw - 1 with
  | some r => some r.1
  | none => if e.nextRow < s.qh then some e.nextRow else none

def State.leadOf (s : State) (q : Fin 4) : Int :=
  match s.firstRow q with
  | none => 1024
  | some r => (s.vblank : Int) + 16 * r - 2 - (s.easel q).period

/-- Count the cycles spent in URGENT or PANIC since the last change or count (R184). -/
def State.urgFlush (s : State) (q : Fin 4) : State :=
  let e := s.easel q
  let n := easelCyc s.now - easelCyc e.urgAt
  let s := s.setEasel q { e with urgAt := s.now }
  match e.urg with
  | .normal => s
  | .urgent => s.addLive (idUrgentCycles q.val) n
  | .panic => s.addLive (idPanicCycles q.val) n

/-- The urgency state becomes u: the quadrant's requests take its class; the first PANIC of a sub-frame raises its event. -/
def State.setUrg (s : State) (q : Fin 4) (u : Urgency) : State :=
  if (s.easel q).urg = u then s
  else
    let s := s.urgFlush q
    let first := u == .panic && !(s.easel q).panicked
    let s := s.setEasel q { s.easel q with urg := u, panicked := (s.easel q).panicked || u == .panic }
    let s := s.reclass q (urgClass u)
    if first then s.raiseN (353 + 16 * q.val) 0 0 else s

/-- The evaluation of R242 and R243. -/
def State.evalLead (s : State) (q : Fin 4) : State :=
  let l := s.leadOf q
  let s := s.setEasel q { s.easel q with lead := (min l 255).toNat }
  s.setUrg q (urgencyStep (s.reg (idWm q.val)) l (s.easel q).urg)

/-! ### Line stream (R260 to R266) -/

def State.port (s : State) (q : Fin 4) : Port := s.ports[q]
def State.setPort (s : State) (q : Fin 4) (p : Port) : State := { s with ports := s.ports.set q p }

/-- Used lanes of a port (R259). -/
def State.lanes (s : State) (q : Fin 4) : Nat := (linkLanes (s.reg (idPlCtrl q.val))).getD 0

/-- The slots that have passed on port q are filled; in training and outside the line periods with ALIGN rows too (R262, R270). -/
def State.linkFill (s : State) (q : Fin 4) : State :=
  let e := s.easel q
  s.setPort q ((s.port q).catchUp s.now ((s.port q).st != .up || e.st == .idle || decide (s.lt ≤ e.period)) s.lt)

/-- An ALIGN row for line period n, and a stream behind it; nothing is sent while the port is not UP (R262, R271). -/
def State.sendPeriod (s : State) (q : Fin 4) (n : Nat) (l : List LinkBlk) : State :=
  if (s.port q).st = .up then
    let s := s.linkFill q
    s.setPort q ((s.port q).period n l)
  else s

/-- A message outside a line period's stream. -/
def State.sendMsg (s : State) (q : Fin 4) (code : Nat) (fields : List Byte) : State :=
  if (s.port q).st = .up then
    let s := s.linkFill q
    s.setPort q { s.port q with due := (s.port q).due ++ [.blocks [msgBlk code fields]] }
  else s

/-- SF_START and the PPS packet of line period 0 (R263, R264). -/
def State.sendStart (s : State) (q : Fin 4) : State :=
  let e := s.easel q
  let head := msgBlk 1 (leBytes 4 e.k ++ leBytes 1 (e.steer % 4 + 4 * b2n s.expo.d2 + 8 * s.rf idDscCtrl 1 0) ++ leBytes 1 s.qw)
  let s := s.sendPeriod q 0 (head :: packetBlks 2 0 0 0 ((List.range 128).map s.ppsByte))
  s.setPort q { s.port q with seq := 1 }

/-- Chunk size in bytes (R250). -/
def State.chunkSize (s : State) : Nat := match s.rf idDscCtrl 1 0 with | 0 => 512 | 1 => 640 | _ => 768

/-- A line's stage 5 words of slice m. -/
def Easel.sliceLine (e : Easel) (m y : Nat) : List Word := (List.range 512).map fun i => mapGet (fun _ => 0) e.outw (pixKey y (512 * m + i))

/-- The chunk of slice m for line y (R250): from the lines of its slice row so far. -/
def State.chunk (s : State) (q : Fin 4) (m y : Nat) : List Byte :=
  let e := s.easel q
  padTo s.chunkSize (Config.dscChunk (s.rf idDscCtrl 1 0) ((List.range (y % 16 + 1)).map fun j => e.sliceLine m (y / 16 * 16 + j)))

/-- The stream of active line y (R263), with sequence numbers from n. -/
def State.lineBlks (s : State) (q : Fin 4) (y n : Nat) : List LinkBlk :=
  msgBlk 2 (leBytes 2 y ++ leBytes 1 s.qw) ::
    (List.range s.qw).flatMap fun m => packetBlks 1 m y ((n + m) % 256) (s.chunk q m y)

/-- The line period of active line y (R262, R263, R266). -/
def State.sendLine (s : State) (q : Fin 4) (y : Nat) : State :=
  let n := (s.port q).seq
  let s := s.sendPeriod q (s.vblank + y) (s.lineBlks q y n)
  let p := s.port q
  s.setPort q { p with seq := (n + s.qw) % 256, clk := { p.clk with endSlot := some (p.clk.slots + p.due.length - 1) } }

/-! ### Loupe (R252 to R258) -/

/-- The Grain phase of a sub-frame (R231). -/
def State.phase (s : State) (q : Fin 4) : Nat := if bit (s.reg idCorrCtrl) 6 then (s.easel q).frame % 4 else 0

/-- The rectangles that are checked in the sub-frame that starts (R255). -/
def State.loupeChecked (s : State) (q : Fin 4) : BitVec 16 :=
  BitVec.ofNat 16 (maskOf ((List.range 16).filter fun n =>
    let c := s.reg (idLoupe q.val n 2)
    bit c 0 && bit c (4 + (s.easel q).steer) && bit c (8 + s.phase q)))

def rgbaBytes (c : Rgba) : List Byte := leBytes 2 c.r ++ leBytes 2 c.g ++ leBytes 2 c.b ++ leBytes 2 c.a

/-- The bytes of line y from x0 to x1 at a tap (R253). -/
def State.tapBytes (s : State) (q : Fin 4) (tap y x0 x1 : Nat) : List Byte :=
  let e := s.easel q
  let xs := (List.range (x1 - x0)).map fun i => x0 + i
  match tap with
  | 0 => xs.flatMap fun x => rgbaBytes (mapGet (fun _ => rgba0) e.buf (pixKey y x))
  | 1 => xs.flatMap fun x => leBytes 4 (mapGet (fun _ => (0 : Word)) e.outw (pixKey y x)).toNat
  | _ => (List.range (x1 / 512 - x0 / 512)).flatMap fun m => s.chunk q (x0 / 512 + m) y

/-- Take line y into the CRCs of the checked rectangles. -/
def State.loupeLine (s : State) (q : Fin 4) (y : Nat) : State :=
  let e := s.easel q
  let next (n : Fin 16) : Word :=
    let fx := s.reg (idLoupe q.val n.val 0)
    let fy := s.reg (idLoupe q.val n.val 1)
    if e.checked.getLsbD n.val && decide (fld fy 15 0 ≤ y ∧ y < fld fy 31 16)
    then crc32Bytes e.crcs[n] (s.tapBytes q (s.rf (idLoupe q.val n.val 2) 2 1) y (fld fx 15 0) (fld fx 31 16))
    else e.crcs[n]
  s.setEasel q { e with crcs := Vector.ofFn next }

/-! ### Correction of one line (R214 to R231) -/

/-- A coefficient of the colour matrix (R216). -/
def State.coeff (s : State) (n : Nat) : Int :=
  let w := s.reg (idMatrix (n / 2))
  if n % 2 = 0 then signed 15 (fld w 14 0) else signed 15 (fld w 30 16)

def State.corrOffset (s : State) (ch : Nat) : Int :=
  match ch with
  | 0 => signed 16 (fld (s.reg idOffsetRg) 15 0)
  | 1 => signed 16 (fld (s.reg idOffsetRg) 31 16)
  | _ => signed 16 (fld (s.reg idOffsetB) 15 0)

/-- Stage 1 of channel ch. -/
def State.stage1 (s : State) (ch : Nat) (c : Rgba) : Nat :=
  if bit (s.reg idCorrCtrl) 0
    then matrixStage (s.coeff (3 * ch)) (s.coeff (3 * ch + 1)) (s.coeff (3 * ch + 2)) (s.corrOffset ch) c.r c.g c.b
    else match ch with | 0 => c.r | 1 => c.g | _ => c.b

/-- Stage 2 of channel ch at quadrant pixel (x, y); an undeliverable block reads as identity (R219). -/
def State.stage2 (s : State) (q : Fin 4) (ch x y o : Nat) : Nat :=
  let c := s.reg idCorrCtrl
  let pl (n : Nat) : Plane := s.dodgePlane q.val s.dodgeSet n
  let off (v : Option Nat) : Int := match v with | none => 0 | some b => signed 8 b
  if bit c 1 then
    let coarse := bit c 2
    dodgeStage o ((s.planeElem (pl 0) x y).getD 0x80) (off (s.planeElem (pl 1) x y))
      (if coarse then (s.planeElem (pl (2 + ch)) (x / 16) (y / 16)).getD 0x80 else 0x80)
      (if coarse then off (s.planeElem (pl (5 + ch)) (x / 16) (y / 16)) else 0)
  else o

/-- Stage 3. -/
def State.stage3 (s : State) (ch d : Nat) : Nat := transferStage (fun n => mapGet (fun _ => 0) s.corr.xfer (4096 * ch + n)) d

def State.odEntry (s : State) (ch b j o t : Nat) : Nat := mapGet (fun _ => 0) s.corr.od (((3 * b + j) * 3 + ch) * 1089 + 33 * o + t)

/-- The result of stages 1 to 4 for one channel: drive, store byte, and whether the entry was bypassed under R225. -/
structure ChanOut where
  drive : Nat
  byte : Nat
  bypass : Bool
  old : Bool
deriving DecidableEq, Repr

/-- Stages 1 to 4 of channel ch of pixel (x, y). -/
def State.channel (s : State) (q : Fin 4) (ch x y : Nat) (c : Rgba) : ChanOut :=
  let e := s.easel q
  let t := s.stage3 ch (s.stage2 q ch x y (s.stage1 ch c))
  let od := bit (s.reg idCorrCtrl) 4
  let bp := odBypass t
  if s.flatNow then ⟨t, bp.byte, false, false⟩
  else if !e.pfsValid then ⟨t, bp.byte, true, false⟩
  else
    match s.planeElem (s.pfsPlane q.val ch) x y with
    | none => ⟨t, bp.byte, true, false⟩
    | some b =>
      if !od then ⟨t, bp.byte, false, false⟩
      else
      let r := odStage (s.odEntry ch) (fun b => s.corr.steps.toList.getD b 1) e.band.band e.band.prev e.band.oldLeft
        (s.rf idOdCtrl 13 0) t b
      ⟨r.drive, r.byte, false, r.old⟩

/-- Stage 5 of one channel at a quadrant pixel. -/
def State.stage5 (s : State) (q : Fin 4) (x y drive : Nat) : Nat :=
  grainStage (bit (s.reg idCorrCtrl) 5) (s.phase q) (x + quadRight q * 512 * s.qw) (y + quadBelow q * 16 * s.qh) drive

/-- Key of a new store byte. -/
def pfsKey (ch y x : Nat) : Nat := ch * 2 ^ 28 + y * 2 ^ 14 + x

/-- The blocks of a block row of a plane that begins at line y of the plane, each with its number. -/
def rowBlocks (pl : Plane) (y : Nat) : List (Plane × Nat) :=
  let a := blocksAcross pl.lay pl.w
  (List.range a).map fun b => (pl, y / layoutBh pl.lay * a + b)

/-- The Dodge blocks whose block row begins with line y (R218). -/
def State.dodgeRow (s : State) (q : Fin 4) (y : Nat) : List (Plane × Nat) :=
  let c := s.reg idCorrCtrl
  let pl (n : Nat) : Plane := s.dodgePlane q.val s.dodgeSet n
  (if bit c 1 && y % 8 == 0 then [0, 1].flatMap fun n => rowBlocks (pl n) y else []) ++
    if bit c 1 && bit c 2 && y % 128 == 0 then [2, 3, 4, 5, 6, 7].flatMap fun n => rowBlocks (pl n) (y / 16) else []

/-- The blocks of the previous-frame store whose block row begins with line y, while the store is read (R224, R225). -/
def State.pfsRow (s : State) (q : Fin 4) (y : Nat) : List (Plane × Nat) :=
  if !s.flatNow && (s.easel q).pfsValid && y % 8 == 0 then [0, 1, 2].flatMap fun ch => rowBlocks (s.pfsPlane q.val ch) y else []

/-- The Easel reads the Dodge and store blocks whose block row begins with line y, in its quadrant's urgency class (R33), and reports those
that cannot be delivered (R219, R225). -/
def State.lineReads (s : State) (q : Fin 4) (y : Nat) : State :=
  let dodge := s.dodgeRow q y
  let pfs := s.pfsRow q y
  let s := (dodge ++ pfs).foldl (fun s b => s.devRead (.easel q) (b.1.addr + 512 * b.2) (b.1.ent + 2 * b.2)) s
  let bad (l : List (Plane × Nat)) : List (Plane × Nat) := l.filter fun b => !(s.readPlane b.1 b.2).ok
  let t := (bad dodge).foldl (fun s _ => (s.addLive (idDodgeFault q.val) 1).raiseN (362 + 16 * q.val) 0 0) s
  (bad pfs).foldl (fun s _ => s.raiseN (361 + 16 * q.val) 0 0) t

/-- Correct line y (R214, R240): stage 5 output, new store bytes, counts and Loupe. -/
def State.correctLine (s : State) (q : Fin 4) (y : Nat) : State :=
  let s := s.lineReads q y
  let e := s.easel q
  let flat := s.flatNow
  let r := (List.range (512 * s.qw)).foldl
    (fun (acc : List (Nat × Word) × List (Nat × Nat) × Nat × Nat) x =>
      let c := mapGet (fun _ => rgba0) e.buf (pixKey y x)
      let o := [0, 1, 2].map fun ch => s.channel q ch x y c
      let w := (o.zipIdx).foldl (fun w k => w + s.stage5 q x y k.1.drive * 2 ^ (10 * k.2)) 0
      let store := if flat then acc.2.1 else (o.zipIdx).foldl (fun m k => mapPut m (pfsKey k.2 y x) k.1.byte) acc.2.1
      (mapSet (fun _ => 0) acc.1 (pixKey y x) (BitVec.ofNat 32 w), store,
        acc.2.2.1 + (o.filter ChanOut.old).length, acc.2.2.2 + (o.filter ChanOut.bypass).length))
    (e.outw, e.pfsNew, 0, 0)
  let s := s.setEasel q { e with outw := r.1, pfsNew := r.2.1, corrected := y + 1 }
  let s := (s.addLive (idOdOldband q.val) r.2.2.1).addLive (idPfsBypass q.val) r.2.2.2
  s.loupeLine q y

/-! ### The previous-frame store (R223 to R225) -/

/-- The line of a new store byte's key. -/
def pfsLine (k : Nat) : Nat := k % 2 ^ 28 / 2 ^ 14

/-- The Easel writes block row b of the store in its quadrant's urgency class (R33): the new bytes of lines before `lim`, the others as read
(R224); the new entries that are written with S ≠ 0 are counted (R232). Its codec codes as FX_0.CTRL's reset word says (R206, log entry
147). -/
def State.storeRow (s : State) (q : Fin 4) (b lim : Nat) : State :=
  let new := (s.easel q).pfsNew
  let s := s.addLive (idOdActive q.val) (new.filter fun m => pfsLine m.1 / 8 == b && decide (pfsLine m.1 < lim) && m.2 % 4 != 0).length
  let s := [0, 1, 2].foldl (fun s ch =>
    let pl := s.pfsPlane q.val ch
    let a := blocksAcross pl.lay pl.w
    (List.range a).foldl (fun s k =>
      let blk := b * a + k
      let old := (s.readPlane pl blk).orZero
      let raw := (List.range 8).flatMap fun j => (List.range 64).map fun i =>
        if 8 * b + j < lim
          then match mapFind new (pfsKey ch (8 * b + j) (64 * k + i)) with
            | some v => BitVec.ofNat 8 v
            | none => byteAt old (64 * j + i)
          else byteAt old (64 * j + i)
      let e := s.easel q
      let c := codeBlock pl.lay (resetWord (idFxCtrl 0)) (nextK0 pl.lay e.codecEnds) raw false
      let s := match c.ends with | none => s | some r => s.setEasel q { e with codecEnds := some r }
      (s.putCharge (.easel q) (pl.addr + 512 * blk) (pl.ent + 2 * blk) c.stored.length).storeBlk (pl.addr + 512 * blk) (pl.ent + 2 * blk)
        c.stored (mkEntry c.mode (c.stored.length / 32 - 1) false false c.fb)) s) s
  s.setEasel q { s.easel q with pfsNew := (s.easel q).pfsNew.filter fun m => pfsLine m.1 / 8 != b }

/-- The block rows with lines before y, which are sent, are written; all other new bytes are dropped (R224). -/
def State.storeAbort (s : State) (q : Fin 4) (y : Nat) : State :=
  let rows := ((s.easel q).pfsNew.map fun m => pfsLine m.1 / 8).eraseDups.filter fun b => decide (8 * b < y)
  let s := rows.foldl (fun s b => s.storeRow q b y) s
  s.setEasel q { s.easel q with pfsNew := [], pfsWhole := false }

/-- Once an aborted sub-frame has no line left to send, the store takes the lines that the panel has received (R224, R246). -/
def State.storeEnd (s : State) (q : Fin 4) : State :=
  let e := s.easel q
  if e.st = .aborted ∧ e.corrected ≤ e.sentLines ∧ e.pfsNew ≠ [] then s.storeAbort q e.sentLines else s

/-! ### Hogel rows, tokens and underruns -/

/-- Allocate the next hogel row: its 16 lines and its strip tokens (R37, R176, R238; log entry 29). -/
def State.allocRow (s : State) (q : Fin 4) : State :=
  let e := s.easel q
  if e.nextRow < s.qh ∧ 16 ≤ s.freeUnits (37 + q.val) then
    let s := (s.issue (37 + q.val) 16).issue (33 + q.val) s.qw
    s.setEasel q { e with rows := e.rows ++ [(e.nextRow, 0)], nextRow := e.nextRow + 1
                          strips := e.strips ++ (List.range s.qw).map fun m => ⟨e.nextRow, m, none, none, []⟩ }
  else s

/-- Strips abandon and return their tokens (R180). -/
def State.abandonStrips (s : State) (q : Fin 4) : State :=
  let e := s.easel q
  let n := e.strips.length
  let s := e.strips.foldl (fun s x => s.ctTokenBack q.val x.row x.m) s
  ((s.setEasel q { e with strips := [] }).giveBack (33 + q.val) n).addLive (idAbandoned q.val) n

/-- Strips of line y's hogel row that have not delivered. -/
def State.pendingStrips (s : State) (q : Fin 4) (y : Nat) : Nat :=
  match mapFind (s.easel q).rows (y / 16) with
  | some m => s.qw - (bitsOf m 32).length
  | none => s.qw

/-- An exposure is in force, be all its plates held transparent, so that COMMIT admitted it; and no stop is in force (R76, R248). -/
def State.admittedNow (s : State) : Bool := s.expo.stop == 0 && (s.expo.order != [] || s.expo.transp != 0)

/-- The counter, UNDERRUN_INFO and event of an underrun (R248). -/
def State.countUnderrun (s : State) (q : Fin 4) (y cause : Nat) : State :=
  let w := mkWord [(31, 30, cause), (29, 29, b2n s.admittedNow), (28, 27, urgCode (s.easel q).urg), (26, 14, y),
    (13, 8, s.pendingStrips q y)]
  ((s.addCtr (idUnderruns q.val) 1).setReg (idUnderInfo q.val) w).raise (352 + 16 * q.val) w 0

/-- The ABORT message of line y in its line period (R263, R264, R266). -/
def State.sendAbort (s : State) (q : Fin 4) (y cause : Nat) : State :=
  s.sendPeriod q (s.vblank + y) [msgBlk 3 (leBytes 2 y ++ leBytes 1 cause)]

/-- The lines before y that are or will be sent: without the one before y where it has been cut off (R246, R272). -/
def State.sendable (s : State) (q : Fin 4) (y : Nat) : Nat :=
  if (s.port q).clk.endSlot.isNone ∧ (s.easel q).sentLines < y then y - 1 else y

/-- The sub-frame is aborted with the lines before `last` alone left to send: the others' line-buffer lines are returned (R37, R246). -/
def State.abortAt (s : State) (q : Fin 4) (last : Nat) (msg : Option (Nat × Nat)) : State :=
  let e := s.easel q
  let s := s.giveBack (37 + q.val) (e.linesHeld - (last - e.sentLines))
  (s.setEasel q { s.easel q with st := .aborted, abort := msg, corrected := last, rows := [] }).storeEnd q

/-- An underrun at line y (R245 to R247): lines before y that are in correction are still sent. -/
def State.underrun (s : State) (q : Fin 4) (y cause : Nat) : State :=
  let s := (s.countUnderrun q y cause).abandonStrips q
  let s := s.setEasel q { s.easel q with pfsWhole := false }
  s.abortAt q (s.sendable q y) (some (y, cause))

/-- The Easel of quadrant q sends nothing more of its sub-frame (R246, R283). -/
def State.easelStop (s : State) (q : Fin 4) : State :=
  let s := s.setPort q ((s.port q).cut s.now)
  let s := s.setEasel q { s.easel q with pfsWhole := false }
  s.abortAt q (s.easel q).sentLines none

/-- Every Easel aborts its sub-frame at once, without an underrun (R283). -/
def State.rasterStop (s : State) (q : Fin 4) : State :=
  let e := s.easel q
  if e.st = .idle then s
  else
    let s := ((if e.st = .running then s.abandonStrips q else s).linkFill q).easelStop q
    s.setEasel q { s.easel q with goe := true, gck := 0, gsp := false }

/-! ### Line periods -/

/-- Has the start of line period n come (R235)? -/
def State.periodDue (s : State) (q : Fin 4) (n : Nat) : Bool :=
  let e := s.easel q
  decide (5 * periodStart e.cyc (s.rf idRasterGuard 15 0) s.lt n ≤ 24 * (s.now - e.arrival))

/-- Line period n starts while the sub-frame runs: line transmission, gate pins, correction start, lead (R235 to R246). -/
def State.periodRun (s : State) (q : Fin 4) (n : Nat) : State :=
  let vb := s.vblank
  let h := 16 * s.qh
  let s := s.setEasel q { s.easel q with period := n, gck := 0, gsp := n + 1 == vb }
  if s.lt ≤ n then s.setEasel q { s.easel q with goe := true }
  else
    let e := s.easel q
    let y := n - vb
    let z := n + 2 - vb
    let link := decide (vb ≤ n) && (s.port q).st != .up
    let late := decide (vb ≤ n + 2 ∧ z < h) && (mapFind e.rows (z / 16)) != some (2 ^ s.qw - 1)
    if link then
      (s.underrun q y (if late then 1 else 3)) |> fun s => s.setEasel q { s.easel q with abort := none, goe := true }
    else
      let s := if vb ≤ n then (s.sendLine q y).setEasel q { s.easel q with gck := BitVec.ofNat 4 (2 ^ (y % 4)), goe := false }
        else s.sendPeriod q n []
      if late then s.underrun q z 1
      else
        let s := if vb ≤ n + 2 ∧ z < h then s.correctLine q z else s
        s.evalLead q

/-- Line period n of an aborted sub-frame: its lines before the abort line are sent, then the abort message, then nothing (R246, R262). While the
port is not UP no line is sent and no gate line is scanned (R271, R279). -/
def State.periodAbort (s : State) (q : Fin 4) (n y cause : Nat) : State :=
  let vb := s.vblank
  let s := s.setEasel q { s.easel q with period := n, gck := 0, gsp := n + 1 == vb }
  let e := s.easel q
  if n < vb then s.sendPeriod q n []
  else if (s.port q).st ≠ .up then (s.setEasel q { e with goe := true }).abortAt q (min e.corrected (s.sendable q (n - vb))) none
  else if n - vb < y then (s.sendLine q (n - vb)).setEasel q { e with gck := BitVec.ofNat 4 (2 ^ ((n - vb) % 4)), goe := false }
  else (s.sendAbort q y cause).setEasel q { e with abort := none, goe := true }

/-- Line period n after the abort message (R262): its ALIGN row alone. -/
def State.periodAfter (s : State) (q : Fin 4) (n : Nat) : State :=
  let s := s.setEasel q { s.easel q with period := n, gsp := n + 1 == s.vblank && s.panel.st != .safeSeq }
  if s.lt ≤ n then s else s.sendPeriod q n []

/-- LINE_PERIOD_START (R235, R236, R240, R242, R245, R262, R263, R279): the slots of the period before are filled first. -/
def execLinePeriodStart (q : Fin 4) (s : State) : Out :=
  .next (
    let e := s.easel q
    let n := e.period + 1
    if s.easelRuns q && decide (n ≤ s.lt) && s.periodDue q n then
      let s := s.linkFill q
      match e.st, e.abort with
      | .running, _ => s.periodRun q n
      | .aborted, some (y, cause) => s.periodAbort q n y cause
      | .aborted, none => s.periodAfter q n
      | .idle, _ => s
    else s)

/-- Lines whose transmission has started. -/
def State.linesOut (s : State) (q : Fin 4) : Nat :=
  let e := s.easel q
  if e.st = .idle then e.sentLines else min (e.period + 1 - s.vblank) (if e.st = .aborted then e.corrected else 16 * s.qh)

/-- The drive histogram of a line that has been sent (R448). -/
def State.histLine (s : State) (q : Fin 4) (y : Nat) : State :=
  if y % 16 ≠ 8 then s
  else
    let e := s.easel q
    let ry := (y / 16 + quadBelow q * s.qh) / 64
    s.setEasel q { e with hist := (List.range (32 * s.qw)).foldl (fun m i =>
      let rx := (i + quadRight q * 32 * s.qw) / 64
      let w := mapGet (fun _ => (0 : Word)) e.outw (pixKey y (16 * i + 8))
      [0, 1, 2].foldl (fun m ch =>
        let k := ((32 * ry + rx) * 3 + ch) * 16 + fld w (10 * ch + 9) (10 * ch) / 64
        mapSet (fun _ => 0) m k (min (mapGet (fun _ => 0) m k + 1) (2 ^ 32 - 1))) m) e.hist }

/-- A SERVICE_CAPTURE that waits for this line gets it (R512), unless its result cannot be written now (R343): it then waits on. -/
def State.captureLine (s : State) (q : Fin 4) (y : Nat) : State :=
  match s.loads.capture with
  | none => s
  | some (c, _, k) =>
    let bytes := s.tapBytes q (c.arg 0 1) y 0 (512 * s.qw)
    if c.arg 1 1 = q.val ∧ c.arg 2 2 = y ∧ k ≤ (s.easel q).k ∧ s.resultRoom (c.arg 8 8) bytes.length then
      let s := s.putResult (c.arg 8 8) bytes
      let s := { s with loads := { s.loads with capture := none } }
      if s.waits c then s.done c [] else s
    else s

/-- Has the last packet of line y entered its serialiser (R266)? So it has when the period of a later line has begun. -/
def State.lineOut (s : State) (q : Fin 4) (y : Nat) : Bool :=
  let e := s.easel q
  decide (y + 1 < s.linesOut q) || (s.port q).lineOut s.now || (e.st == .aborted && decide (y + s.vblank < e.period))

/-- LINE_SENT (R241, R266): the last packet of the next line has entered its serialiser; the line-buffer line returns; with 16 returned the
next hogel row is allocated (R37). -/
def execLineSent (q : Fin 4) (s : State) : Out :=
  .next (
    let e := s.easel q
    let y := e.sentLines
    if s.easelRuns q && e.st != .idle && decide (y < s.linesOut q) && s.lineOut q y then
      let s := s.setEasel q { e with sentLines := y + 1, rows := if y % 16 = 15 then e.rows.filter fun r => r.1 != y / 16 else e.rows }
      let s := (s.giveBack (37 + q.val) 1).histLine q y
      let s := if y % 8 = 7 && !s.flatNow then s.storeRow q (y / 8) (y + 1) else s
      let s := ((s.storeEnd q).captureLine q y).ctPass q y e.k
      if e.st = .running then s.allocRow q else s
    else s)

/-- STRIP_DELIVERED (R145 to R163, R176): engine n delivers its first strip; a hogel row that completes is evaluated (R242). -/
def execStripDelivered (n : Fin 96) (s : State) : Out :=
  .next (
    let q : Fin 4 := Fin.ofNat 4 (n.val / 24)
    let e := s.easel q
    match e.strips.find? fun x => x.engine == some n.val with
    | none => s
    | some x =>
      if s.engineTakes n.val && s.easelRuns q && e.st == .running then
        let s := s.paintStrip q (Fin.ofNat 12 (n.val / 8)) x.row x.m (x.marks.getD [])
        let e := s.easel q
        let rows := e.rows.map fun r => if r.1 = x.row then (r.1, r.2 ||| 2 ^ x.m) else r
        let s := s.setEasel q { e with strips := e.strips.erase x, rows := rows }
        let s := (s.giveBack (33 + q.val) 1).ctTokenBack q.val x.row x.m
        if mapFind rows x.row = some (2 ^ s.qw - 1) then s.evalLead q else s
      else s)

/-! ### The start of a raster sub-frame (R235, R255, R271) -/

/-- Steer state and light-field frame of raster tick k (R43, R79). -/
def State.steerOf (s : State) (k : Nat) : Nat :=
  let n := s.rf idSteer 1 0
  if s.expo.d2 then k / 2 % 2 ^ (n - 1) else k % 2 ^ n

/-- Quadrant q's raster sub-frame of tick k starts, or cannot (R271); `fresh` says that C is unavailable. -/
def State.rasterBegin (s : State) (q : Fin 4) (k : Nat) (lost : Bool) : State :=
  let e := s.easel q
  let prev := if lost then none else e.prevArrival
  let cn := nominalCycles (if s.expo.d2 then 2 else 1) s.rateNum s.rateDen
  let e1 := { e with
    st := .idle, k := k, steer := s.steerOf k, frame := k / 2 ^ s.rf idSteer 1 0, arrival := s.now
    cyc := rasterCycles cn (prev.map fun p => easelCyc s.now - easelCyc p), period := 0, prevArrival := some s.now, rows := []
    nextRow := 0, corrected := 0, sentLines := 0, pfsNew := [], abort := none, panicked := false, lead := 255, checked := 0
    crcs := Vector.replicate 16 0xFFFFFFFF#32, strips := [], gck := 0, gsp := false, goe := true
    culled := BitVec.ofNat 8 (maskOf s.blendNow) }
  let s := s.setEasel q e1
  let s := s.setUrg q .normal
  let s := s.setEasel q { s.easel q with urgAt := s.now }
  if !s.rasterRuns || !s.easelRuns q then s
  else
    match (s.port q).st with
    | .up =>
      let s := s.setEasel q { s.easel q with st := .running, checked := s.loupeChecked q, pfsWhole := !s.flatNow }
      let s := if bit (s.reg (idMaskCtrl q.val)) 2 then s else s.wakeQuad q
      let s := s.gateWays q
      let s := (List.range 4).foldl (fun s _ => s.allocRow q) s
      (s.sendStart q).evalLead q
    | .retrain =>
      let s := s.setEasel q { s.easel q with st := .running, checked := s.loupeChecked q }
      s.underrun q 0 3 |> fun s => s.setEasel q { s.easel q with abort := none }
    | _ => s

/-- What the end of quadrant q's raster sub-frame does for Loupe (R256, R257). -/
def State.loupeEnd (s : State) (q : Fin 4) : State :=
  let e := s.easel q
  if e.st = .idle then s
  else
    let whole (n : Nat) : Bool := decide (fld (s.reg (idLoupe q.val n 1)) 31 16 ≤ e.sentLines)
    let chk := (List.range 16).filter fun n => e.checked.getLsbD n
    let done := chk.filter whole
    let crc (n : Nat) : Word := ~~~ (e.crcs.toList.getD n 0)
    let bad := done.filter fun n => crc n != s.reg (idLoupe q.val n 3)
    let s := done.foldl (fun s n => s.setReg (idLoupe q.val n 4) (crc n)) s
    let s := s.setReg (idLoupeStatus q.val) (mkWord [(31, 16, maskOf done), (15, 0, maskOf bad)])
    let s := if bad = [] then s else s.raiseN (416 + q.val) (maskOf bad) 0
    let inc := chk.filter fun n => !whole n
    if inc = [] then s else s.raiseN (420 + q.val) (maskOf inc) 0

/-! ### Pins (R279, R445) -/

/-- EASEL_CLK cycles since the start of the line period in progress. -/
def State.inPeriod (s : State) (q : Fin 4) : Nat :=
  let e := s.easel q
  easelCyc (s.now - e.arrival) - periodStart e.cyc (s.rf idRasterGuard 15 0) s.lt e.period

/-- The window of GATE.TIMING within a line period. -/
def State.gateWindow (s : State) (q : Fin 4) : Bool :=
  decide (s.rf idGate 15 0 ≤ s.inPeriod q ∧ s.inPeriod q < s.rf idGate 31 16)

/-- The pins GCK_q[3:0], GSP_q and GOE_q; in the panel-safe sequence every gate line is on (R283); while PL is clamped (R491) or the
Easel has no clock (R534) GOE_q is high and the others low. -/
def State.gckPins (s : State) (q : Fin 4) : BitVec 4 :=
  if !s.up dPl || !s.easelRuns q then 0
  else if s.panel.st = .safeSeq ∧ s.panel.step = .discharge then 0xF
  else if s.gateWindow q then (s.easel q).gck else 0

def State.gspPin (s : State) (q : Fin 4) : Bool := s.up dPl && s.easelRuns q && (s.easel q).gsp && s.gateWindow q

def State.goePin (s : State) (q : Fin 4) : Bool :=
  if !s.up dPl || !s.easelRuns q then true
  else if s.panel.st = .safeSeq ∧ s.panel.step = .discharge then false
  else (s.easel q).goe

end Sys2Proof.Machine
end

