-- ==== Sys2Proof/Machine/Modes.lean ====
section
/-!
DEFINITION. Modes and transitions (chapter 21): the domains of each mode, the end of a transition with its event and notice, and
what the panel and the clocks ask about a transition that runs.
-/
namespace Sys2Proof.Machine

/-- The bit of a domain (R490). -/
def domBit (d : Nat) : BitVec 24 := BitVec.ofNat 24 (2 ^ d)

/-- UB is powered only while two modules are configured, or its window to become configured is open (R40, R355). -/
def State.ubWanted (s : State) : Bool := !s.pmu.ubOff

/-- The domains powered in a mode (R40), where LATENT, which the table leaves out, keeps AON until VAUX goes (R507, log entry 127); stop 3
leaves the clusters of FLAT (R41, R78), which come back when its lift is scheduled. -/
def State.modeMask (s : State) (m : Mode) : BitVec 24 :=
  let low : Nat := if s.ubWanted then 0x3F else 0x2F
  let ecs : Nat := if s.expo.stop = 3 ∧ s.expo.sched.isNone then 2 ^ 12 + 2 ^ 15 + 2 ^ 18 + 2 ^ 21 else 0xFFF000
  match m with
  | .latent => 1
  | .safelight => 1
  | .standby => BitVec.ofNat 24 low
  | .flat => BitVec.ofNat 24 (low + 0xFC0 + 2 ^ 12 + 2 ^ 15 + 2 ^ 18 + 2 ^ 21)
  | .field => BitVec.ofNat 24 (low + 0xFC0 + ecs)
  | .service => BitVec.ofNat 24 (low + 0xFC0 + ecs)

/-- The ports may train: the raster runs, or a move out of STANDBY has the panel ON (R270, R496). -/
def State.linksOn (s : State) : Bool :=
  s.panel.st == .on && (s.active || match s.pmu.trans with | some t => activeMode t.target | none => false)

/-- The raster is to stop: a move out of FLAT, FIELD and SERVICE runs (R487, R501, R507). -/
def State.leaving (s : State) : Bool :=
  match s.pmu.trans with
  | some t => s.active && !activeMode t.target
  | none => false

/-- The wake source that the notice names (R488). -/
def State.wakeNibble (s : State) : Nat := s.rf idWakeStatus 7 4

/-- The MODE notice (R488); `woke` says that the start after a wake is what is reported, `src` its source,
0 when no wake caused the transition. -/
def State.modeNotice (s : State) (now prev : Nat) (failed woke : Bool) (src reason : Nat) : State :=
  s.notice 1 (layout 16 [(0, 1, now), (1, 1, prev),
    (2, 1, b2n s.pmu.rest + 2 * b2n failed + 4 * b2n (src != 0 && bit (s.reg idWakeStatus) 31) + 8 * b2n woke),
    (3, 1, src), (4, 1, s.rf idRet 23 16), (6, 2, reason)])

/-- A transition completes (R488): the mode, E0, the notice and the answer. -/
def State.transDone (s : State) : State :=
  match s.pmu.trans with
  | none => s
  | some t =>
    let prev := modeCode s.pmu.mode
    let s := { s with pmu := { s.pmu with mode := t.target, rest := t.rest, trans := none } }
    let s := (s.raiseN 0 (prev + 256 * modeCode t.target) 0).modeNotice (modeCode t.target) prev false false 0 0
    match t.cmd with
    | none => s
    | some c => if s.waits c then s.done c [] else s

/-- A transition fails after it has started (R488): the previous mode stays, E1, the notice and the answer. -/
def State.transFail (s : State) (reason : Nat) : State :=
  match s.pmu.trans with
  | none => s
  | some t =>
    let m := modeCode s.pmu.mode
    let s := { s with pmu := { s.pmu with trans := none, sleep := .awake }, contact := { s.contact with accepting := s.active || s.contact.accepting } }
    let s := (s.raiseN 1 (m + 256 * modeCode t.target + 65536 * reason) 0).modeNotice m m true false 0 reason
    match t.cmd with
    | none => s
    | some c => if s.waits c then s.fail c reason else s

/-- A command ends FAILED with a reason that the spec does not give (log entry 36). -/
def State.failFree (s : State) (c : Cmd) : State := let f := s.free; if f.2.waits c then f.2.fail c (fld f.1 15 0) else f.2

/-- A transition fails with a reason that the spec does not give. -/
def State.transFailFree (s : State) : State := let f := s.free; f.2.transFail (fld f.1 15 0)

end Sys2Proof.Machine
end

