-- ==== Sys2Proof/Machine/Panel.lean ====
section
/-!
DEFINITION. The panel (chapter 10): sideband transactions and POLL, port training, panel power, crack loops, the panel-safe sequence,
RETAIN and RELEASE, and the backlight.
-/
namespace Sys2Proof.Machine

/-! ### Sideband (R273 to R275) -/

/-- A request from SYNC to CRC (R273). -/
def sbFrame (chip cmd : Nat) (payload : List Byte) : List Byte :=
  let body := leBytes 1 chip ++ leBytes 1 cmd ++ be16 payload.length ++ payload
  leBytes 1 0xB4 ++ body ++ be16 (crc16 body)

/-- The broadcast address. -/
abbrev sbAll : Nat := 63

/-- A bus can run: PL_SB_0 and PL_SB_1 lie in AON, the others in PL (R40). -/
def State.sbOn (s : State) (q : Fin 4) : Bool := decide (q.val < 2) || s.up dPl

/-- CK cycles at 25 MHz in units of 4 ns. -/
def ckTime (n : Nat) : Nat := 10 * n

/-- CK cycles of a request of n payload bytes (R273). -/
def reqCk (n : Nat) : Nat := 8 * (n + 7)

/-- A chip's column registers take a value (R275, log entry 131); a broadcast reaches every chip of the bus. -/
def State.setChipCol (s : State) (q : Fin 4) (chip reg v : Nat) : State :=
  if reg = 2 ∨ reg = 3 then
    let l := if chip = sbAll then List.range 32 else [chip]
    { s with panel := { s.panel with chipCols := l.foldl (fun m i => mapPut m (64 * q.val + 2 * i + (reg - 2)) v) s.panel.chipCols } }
  else s

/-- COL_BASE (0) or COL_COUNT (1) of a chip. -/
def State.chipCol (s : State) (key k : Nat) : Nat := (mapFind s.panel.chipCols (2 * key + k)).getD (Config.chipColumn key k)

/-- A CFG_WRITE has reached its chips. -/
def State.cfgWritten (s : State) (q : Fin 4) (t : SbTrans) (c : Cmd) : State :=
  let s := s.setChipCol q t.chip (leAt t.payload 0 1) (leAt t.payload 1 4)
  if s.waits c then s.done c [] else s

/-- The head transactions of bus q start: a broadcast has no response and ends with its request and 8 idle cycles (R273). -/
def State.sbStart (s : State) (q : Fin 4) : Nat → State
  | 0 => s
  | n + 1 =>
    match (s.port q).sb with
    | [] => s
    | t :: rest =>
      let p := s.port q
      let at_ := max s.now p.sbFree
      let p := { p with sbSent := sbFrame t.chip t.cmd t.payload :: p.sbSent, sbAt := at_ }
      if t.chip = sbAll then
        let s := s.setPort q { p with sb := rest, sbFree := at_ + ckTime (reqCk t.payload.length + 8) }
        let s := match t.use with
          | .cfgWrite c => s.cfgWritten q t c
          | _ => s
        s.sbStart q n
      else s.setPort q p

/-- A transaction arrives at bus q: firmware commands, POLL and window writes are served in order of arrival (R274). A bus without power takes
none. -/
def State.sbSubmit (s : State) (q : Fin 4) (t : SbTrans) : State :=
  if s.sbOn q then
    let l := (s.port q).sb
    let s := s.setPort q { s.port q with sb := l ++ [t] }
    if l = [] then s.sbStart q 1 else s
  else
    match t.use with
    | .cfgWrite c => s.failFree c
    | .cfgRead c => s.failFree c
    | _ => s

/-- A broadcast of the block's own: LINK, WINDOW, RETAIN, RELEASE. -/
def State.sbCast (s : State) (q : Fin 4) (cmd : Nat) (payload : List Byte) : State := s.sbSubmit q ⟨sbAll, cmd, payload, .own⟩

/-- The head transaction ends, 8 idle cycles follow, and the next one starts; `again` is submitted anew. -/
def State.sbPop (s : State) (q : Fin 4) (again : List SbTrans) : State :=
  let l := (s.port q).sb
  let s := s.setPort q { s.port q with sb := l.drop 1 ++ again, sbFree := s.now + ckTime 8 }
  s.sbStart q (l.length + 1)

/-- SB_q.ERRORS and E(456 + q) (R274). -/
def State.sbError (s : State) (q : Fin 4) : State := (s.addCtr (idSbErrors q.val) 1).raiseN (456 + q.val) 0 0

/-- CHIPS of bus q. -/
def State.chips (s : State) (q : Fin 4) : Nat := s.rf (idSbChips q.val) 5 0

/-- SB_CFG_WRITE (R275): bus, chip, register and value (log entry 39). -/
def execSbCfgWrite (c : Cmd) (s : State) : Out :=
  .next (if s.mayStart c 0x0604 then
    let chip := c.arg 1 1
    if 3 < c.arg 0 1 ∨ (31 < chip ∧ chip ≠ sbAll) then s.refuse c 0x0108
    else (s.startCmd c).sbSubmit (Fin.ofNat 4 (c.arg 0 1)) ⟨chip, 2, leBytes 1 (c.arg 2 1) ++ leBytes 4 (c.arg 4 4), .cfgWrite c⟩
  else s)

/-- SB_CFG_READ (R275): bus, chip and register; a broadcast has no response to read. -/
def execSbCfgRead (c : Cmd) (s : State) : Out :=
  .next (if s.mayStart c 0x0605 then
    if 3 < c.arg 0 1 ∨ 31 < c.arg 1 1 then s.refuse c 0x0108
    else (s.startCmd c).sbSubmit (Fin.ofNat 4 (c.arg 0 1)) ⟨c.arg 1 1, 3, leBytes 1 (c.arg 2 1), .cfgRead c⟩
  else s)

/-! ### Ports (R270 to R272) -/

/-- The mask of the used lanes of a port. -/
def State.laneMask (s : State) (q : Fin 4) : BitVec 12 := BitVec.ofNat 12 (2 ^ s.lanes q - 1)

/-- A port begins training, from TRAIN or RETRAIN; its lanes send nothing until the attempt starts. -/
def State.trainPort (s : State) (q : Fin 4) (st : PortState) : State :=
  let s := (s.linkFill q).pllRetry (Fin.ofNat 17 (10 + q.val))
  s.setPort q { (s.port q).laneStop s.now with st := st, trainAt := none, attempts := 0 }

/-- The raster starts to run: every port trains (R270). -/
def State.trainAll (s : State) : State := (List.finRange 4).foldl (fun s (q : Fin 4) => s.trainPort q .train) s

def State.training (s : State) (q : Fin 4) : Bool := (s.port q).st == .train || (s.port q).st == .retrain

/-- PL_RETRAIN commands whose ports have all settled end (log entry 38). -/
def State.trainSettle (s : State) : State :=
  let ports (c : Cmd) : List (Fin 4) := (List.finRange 4).filter fun q => (c.arg 0 1).testBit q.val
  let settled (c : Cmd) : Bool := (ports c).all fun q => !s.training q
  let l := s.panel.trainCmds
  let s := { s with panel := { s.panel with trainCmds := l.filter fun c => !settled c } }
  (l.filter settled).foldl (fun s c =>
    if (ports c).all fun q => (s.port q).st == .up then (if s.waits c then s.done c [] else s) else s.failFree c) s

/-- PL_RETRAIN (R270). -/
def execPlRetrain (c : Cmd) (s : State) : Out :=
  .next (if s.mayStart c 0x0603 then
    if 15 < c.arg 0 1 then s.refuse c 0x0108
    else
      let s := (List.finRange 4).foldl (fun s (q : Fin 4) => if (c.arg 0 1).testBit q.val then s.trainPort q .train else s) (s.startCmd c)
      ({ s with panel := { s.panel with trainCmds := s.panel.trainCmds ++ [c] } }).trainSettle
  else s)

/-- PL_TRAIN_START (R270): the LINK register by broadcast, and TS blocks on every used lane with the scramblers reset; the SAFELIGHT window
is no longer refreshed (R503). -/
def execPlTrainStart (q : Fin 4) (s : State) : Out :=
  .next (
    let p := s.port q
    if s.training q && p.trainAt.isNone && s.up dPl && s.locked (10 + q.val) && s.easelRuns q then
      let rate := fld (s.reg (idPlCtrl q.val)) 3 2
      let s := s.sbCast q 2 (leBytes 1 1 ++ leBytes 4 (s.lanes q + 16 * rate))
      let s := s.setPort q { (s.port q).laneStart s.now (s.lanes q) rate with trainAt := some s.now }
      { s with pmu := { s.pmu with refreshAt := none } }
    else s)

/-- Port q is DOWN until its next training (R270, R535). -/
def State.portDown (s : State) (q : Fin 4) : State :=
  let s := s.linkFill q
  ((s.setPort q { (s.port q).laneStop s.now with st := .down, trainAt := none, attempts := 3 }).raiseN (448 + q.val) 0 0).trainSettle

/-- PL_TRAIN_TIMEOUT (R270): 2 ms without UP; three failed attempts make the port DOWN. -/
def execPlTrainTimeout (q : Fin 4) (s : State) : Out :=
  .next (
    let p := s.port q
    match p.trainAt with
    | none => s
    | some t =>
      if s.training q && decide (t + 500000 ≤ s.now) then
        if p.attempts + 1 < 3 then
          let s := s.linkFill q
          s.setPort q { (s.port q).laneStop s.now with trainAt := none, attempts := p.attempts + 1 }
        else s.portDown q
      else s)

/-- The fields of a POLL response (R275). -/
def pollOf (b : List Byte) : ChipPoll :=
  ⟨signed 16 (leAt b 0 2), bit (BitVec.ofNat 32 (leAt b 2 1)) 0, leAt b 2 1 / 2 % 8, BitVec.ofNat 12 (leAt b 3 2), leAt b 5 2⟩

/-- A valid reading of R276, in 1/256 degree C. -/
def ChipPoll.ok (a : ChipPoll) : Bool := a.valid && decide (-10240 ≤ a.temp ∧ a.temp ≤ 32000)

/-- A chip is LOCKED with every used lane (R270, R272). -/
def ChipPoll.good (a : ChipPoll) (used : BitVec 12) : Bool := a.chipState == 2 && a.lanes &&& used == used

/-- THM takes the reading of chip i of bus q (R276, R469). -/
def State.takeReading (s : State) (q : Fin 4) (i : Nat) (a : Option ChipPoll) : State :=
  let key := 32 * q.val + i
  let out := s.thm.chipsOut.erase key
  match a with
  | none => { s with thm := { s.thm with chipsOut := out } }
  | some r =>
    if ChipPoll.ok r then
      { s with thm := { s.thm with chips := mapPut s.thm.chips key ⟨r.temp, s.now, s.chipCol key 0, s.chipCol key 1⟩, chipsOut := out } }
    else { s with thm := { s.thm with chipsOut := if r.valid then out ++ [key] else out } }

/-- The port comes UP (R270, R272). -/
def State.portUp (s : State) (q : Fin 4) : State :=
  let re := (s.port q).st == .retrain
  let s := s.linkFill q
  let s := s.setPort q { s.port q with st := .up, trainAt := none, attempts := 0, upAt := s.now }
  let s := if re then (s.addCtr (idPlRetrains q.val) 1).raiseN (452 + q.val) 0 0 else s
  s.trainSettle

/-- Does a POLL round of bus q run? -/
def State.polling (s : State) (q : Fin 4) : Bool := (s.port q).sb.any fun t => t.use == .poll

/-- SB_POLL (R270, R274, R276): a POLL round of bus q starts, once per millisecond, and as training needs it: each configured chip is POLLed. A
failed POLL is retried by the next round (log entry 132). -/
def execSbPoll (q : Fin 4) (s : State) : Out :=
  .next (
    let p := s.port q
    if s.sbOn q && (s.active || s.linksOn) && !s.polling q && (s.training q || p.pollAt = 0 || decide (p.pollAt + 250000 ≤ s.now)) then
      let s := s.setPort q { p with pollAt := s.now, round := [] }
      (List.range (s.chips q)).foldl (fun s i => s.sbSubmit q ⟨i, 1, [], .poll⟩) s
    else s)

/-- The last POLL of a round has ended: the lanes locked in every chip (PL_q.STATUS.LOCK), and in training, when the round began 100 µs or more
after its start and every chip is LOCKED, UP (R270). -/
def State.roundDone (s : State) (q : Fin 4) : State :=
  let p := s.port q
  let lock := p.round.foldl (fun (m : BitVec 12) a => m &&& (match a with | none => (0 : BitVec 12) | some r => r.lanes)) (0xFFF : BitVec 12)
  let s := s.setPort q { p with lock := lock }
  match s.training q, p.trainAt with
  | true, some t =>
    if t + 25000 ≤ p.pollAt ∧ p.round.all fun a => match a with | none => false | some r => r.good (s.laneMask q) then s.portUp q else s
  | _, _ => s

/-! ### Panel power and the panel-safe sequence (R280 to R283) -/

def State.setPanel (s : State) (p : Panel) : State := { s with panel := p }

/-- DELAY_i and PG_TIMEOUT in units of 4 ns, and DISCHARGE; after a trip they are bounded (R283). -/
def State.tripSeq (s : State) : Bool := s.panel.seqCause.getLsbD 5
def State.railDelay (s : State) (i : Nat) : Nat :=
  let d := s.rf idPnlSeq (8 * i + 7) (8 * i) * 25000
  if s.tripSeq then min d 2500000 else d
def State.pgTimeout (s : State) : Nat :=
  let d := s.rf idPnlTiming 31 16 * 25000
  if s.tripSeq then min d 2500000 else d
def State.discharge (s : State) : Nat :=
  let d := s.rf idPnlTiming 15 0 * 250
  if s.tripSeq then min d 500000 else d

def causeCode : SafeCause → Nat
  | .host => 0
  | .crackA => 1
  | .crackB => 2
  | .pgLost => 3
  | .pgTimeout => 4
  | .trip => 5

/-- Has the backlight frame in progress been sent whole (R284)? -/
def State.blWhole (s : State) (f : List Byte) : Bool :=
  decide (f.length * 8 * 2 * (s.rf idBlCtrl 11 8 + 1) ≤ easelCyc (s.now - s.panel.blStart))

/-- The backlight frames sent, with the one in progress if it has been sent whole. -/
def State.blOut (s : State) : List (List Byte) :=
  match s.panel.blFrame with
  | some f => if s.blWhole f then f :: s.panel.blSent else s.panel.blSent
  | none => s.panel.blSent

/-- The OFF frame of the backlight (R285): it pre-empts a frame in progress. -/
def offFrame : List Byte := [0xFF, 0, 0] ++ be16 (crc16 [0xFF, 0, 0])

/-- The waiting commands of an opcode. -/
def State.panelCmds (s : State) (op : Nat) : List Cmd := s.panel.cmds.filter fun c => c.opcode == op

def State.dropPanelCmds (s : State) (op : Nat) : State := s.setPanel { s.panel with cmds := s.panel.cmds.filter fun c => c.opcode != op }

/-- A trigger of the panel-safe sequence (R283). -/
def State.panelSafe (s : State) (cause : SafeCause) : State :=
  let b := BitVec.ofNat 6 (2 ^ causeCode cause)
  let s := s.setPanel { s.panel with cause := s.panel.cause ||| b }
  match s.panel.st with
  | .off => s
  | .safeSeq => s.setPanel { s.panel with seqCause := s.panel.seqCause ||| b }
  | _ =>
    let s := (List.finRange 4).foldl (fun s (q : Fin 4) => (s.rasterStop q).sendMsg q 4 []) s
    let s := s.setPanel { s.panel with st := .safeSeq, seqCause := b, step := .discharge, stepAt := s.now, latent := false, strobesHeld := true
                                       blFrame := none, blSent := if s.up dPl then offFrame :: s.blOut else s.blOut }
    let on := s.panelCmds 0x0601
    let s := on.foldl (fun s c => s.failFree c) (s.dropPanelCmds 0x0601)
    match cause with
    | .pgTimeout => s.raiseN 464 0 0
    | .pgLost => s.raiseN 465 0 0
    | _ => s

/-- PANEL_SAFE (R283): a trigger with its cause. -/
def execPanelSafe (cause : SafeCause) (s : State) : Out := .next (s.panelSafe cause)

/-- The panel is OFF at the end of the sequence (R283). -/
def State.panelEnds (s : State) : State :=
  let p := s.panel
  let s := s.setPanel { p with st := .off, step := .none, latent := false, seqCause := 0 }
  let s := if p.latent ∨ p.seqCause.getLsbD 5 then s
    else if p.seqCause = 1 then s.raiseN 468 p.cause.toNat 0
    else s.raiseN 472 p.cause.toNat 0
  let l := s.panelCmds 0x0602
  l.foldl (fun s c => if s.waits c then s.done c [] else s) (s.dropPanelCmds 0x0602)

/-- Rail i is done: the next lower one follows, or the panel is OFF. -/
def State.railNext (s : State) (i : Nat) : State :=
  match i with
  | 0 => s.panelEnds
  | j + 1 => s.setPanel { s.panel with step := .lower j, stepAt := s.now }

/-- The rails that are on are lowered from the highest one (R283). -/
def State.railStart (s : State) : State :=
  match (List.range 4).reverse.find? fun i => s.panel.en.getLsbD i with
  | none => s.panelEnds
  | some i => s.setPanel { s.panel with step := .lower i, stepAt := s.now }

/-- PANEL_RAIL_DOWN_STEP (R283, R507): the rail's enable falls after its delay, or its power good is no longer waited for. -/
def execPanelRailDownStep (s : State) : Out :=
  .next (
    match s.panel.step with
    | .lower i =>
      if s.panel.stepAt + s.railDelay i ≤ s.now then
        let s := s.setPanel { s.panel with en := s.panel.en &&& ~~~ BitVec.ofNat 4 (2 ^ i), step := .waitPg i, stepAt := s.now }
        if s.panel.pg.getLsbD i then s else s.railNext i
      else s
    | .waitPg i => if s.panel.stepAt + s.pgTimeout ≤ s.now then s.railNext i else s
    | _ => s)

/-- PNL_PG_FALL (R281, R283). -/
def execPnlPgFall (i : Fin 4) (s : State) : Out :=
  .next (
    let p := s.panel
    let s := s.setPanel { p with pg := p.pg &&& ~~~ BitVec.ofNat 4 (2 ^ i.val)
                                 pgLowAt := if p.pg.getLsbD i.val then p.pgLowAt.set i (some s.now) else p.pgLowAt }
    if p.step = .waitPg i.val then s.railNext i.val else s)

/-- PANEL_OFF (R283). -/
def execPanelOff (c : Cmd) (s : State) : Out :=
  .next (if s.mayStart c 0x0602 then
    if s.panel.st = .off then s.done c []
    else
      let s := (s.startCmd c).panelSafe .host
      s.setPanel { s.panel with cmds := s.panel.cmds ++ [c] }
  else s)

/-- Loop i is enabled and its last reading lies outside its limits (R280, R282). -/
def State.crackBad (s : State) (i : Fin 2) : Bool := bit (s.reg idCrkCtrl) i.val && decide (0 < s.panel.crackOut[i])

/-- The up sequence begins (R280). -/
def State.panelBegin (s : State) : State := s.setPanel { s.panel with st := .upSeq, upRail := 0, stepAt := s.now }

/-- PANEL_ON (R280): refused, whatever the panel's state, while an enabled crack loop is out of range. -/
def execPanelOn (c : Cmd) (s : State) : Out :=
  .next (if s.mayStart c 0x0601 then
    if s.crackBad 0 ∨ s.crackBad 1 then let f := s.free; f.2.refuse c (fld f.1 15 0)
    else
      match s.panel.st with
      | .on => s.done c []
      | .upSeq => let s := s.startCmd c; s.setPanel { s.panel with cmds := s.panel.cmds ++ [c] }
      | .safeSeq => let f := s.free; f.2.refuse c (fld f.1 15 0)
      | .off =>
        let s := (s.startCmd c).panelBegin
        s.setPanel { s.panel with cmds := s.panel.cmds ++ [c] }
  else s)

/-- The panel is ON (R280); a RELEASE that is due is broadcast, and LAST_MODE becomes 0 (R508, R525). -/
def State.panelOn (s : State) : State :=
  let s := (s.setPanel { s.panel with st := .on, strobesHeld := false }).raiseN 469 0 0
  let s := if s.panel.releaseDue then
      (List.finRange 4).foldl (fun s (q : Fin 4) => s.sbCast q 7 [])
        ((s.setPanel { s.panel with releaseDue := false }).writeLastMode 0)
    else s
  let s := if s.linksOn then s.trainAll else s
  let l := s.panelCmds 0x0601
  l.foldl (fun s c => if s.waits c then s.done c [] else s) (s.dropPanelCmds 0x0601)

/-- Rail i has its power good in the up sequence. -/
def State.upAdvance (s : State) (i : Nat) : State :=
  if i = 3 then s.panelOn else s.setPanel { s.panel with upRail := i + 1, stepAt := s.now }

/-- PANEL_UP_RAIL_STEP (R280). -/
def execPanelUpRailStep (s : State) : Out :=
  .next (
    let i := s.panel.upRail
    if s.panel.st == .upSeq && !s.panel.en.getLsbD i && decide (s.panel.stepAt + s.railDelay i ≤ s.now) then
      let s := s.setPanel { s.panel with en := s.panel.en ||| BitVec.ofNat 4 (2 ^ i), stepAt := s.now }
      if s.panel.pg.getLsbD i then s.upAdvance i else s
    else s)

/-- PNL_PG_RISE (R280). -/
def execPnlPgRise (i : Fin 4) (s : State) : Out :=
  .next (
    let p := s.panel
    let s := s.setPanel { p with pg := p.pg ||| BitVec.ofNat 4 (2 ^ i.val), pgLowAt := p.pgLowAt.set i none }
    if p.st == .upSeq && p.upRail == i.val && p.en.getLsbD i.val then s.upAdvance i.val else s)

/-- PG_TIMEOUT (R280). -/
def execPgTimeout (s : State) : Out :=
  .next (
    let p := s.panel
    if p.st == .upSeq && p.en.getLsbD p.upRail && decide (p.stepAt + s.pgTimeout ≤ s.now) then s.panelSafe .pgTimeout else s)

/-- PG_LOST (R281): low for 160 ns while the panel is ON. -/
def execPgLost (i : Fin 4) (s : State) : Out :=
  .next (
    match s.panel.pgLowAt[i] with
    | none => s
    | some t => if s.panel.st == .on && decide (t + 40 ≤ s.now) then s.panelSafe .pgLost else s)

/-- Loop i is due for its measurement, every 250 µs. -/
def State.crackDue (s : State) (i : Fin 2) : Bool := match s.panel.crackAt[i] with | none => true | some t => decide (t + 62500 ≤ s.now)

/-- The reading of a loop's resistance (R564): above the compliance of 1.0 V at 100 µA, as open. -/
def crackReading (ohms : BitVec 16) : BitVec 16 := if 10000 ≤ ohms.toNat then 0xFFFF else ohms

/-- CRACK_MEASURE (R282): two consecutive readings outside LO to HI raise the fatal event and start the panel-safe sequence. -/
def execCrackMeasure (i : Fin 2) (ohms : BitVec 16) (s : State) : Out :=
  .next (if s.active && s.up dPl && bit (s.reg idCrkCtrl) i.val && s.crackDue i then
    let ohms := crackReading ohms
    let lim := s.reg (idCrkLimit i.val)
    let out := ohms.toNat < fld lim 15 0 ∨ fld lim 31 16 < ohms.toNat
    let first := s.rf (idCrkValue i.val) 15 0
    let n := if out then s.panel.crackOut[i] + 1 else 0
    let s := s.setReg (idCrkValue i.val) (ohms.setWidth 32)
    let s := s.setPanel { s.panel with crackOut := s.panel.crackOut.set i n, crackAt := s.panel.crackAt.set i (some s.now) }
    if n = 2 then (s.raiseN (466 + i.val) ohms.toNat first).panelSafe (if i.val = 0 then .crackA else .crackB) else s
  else s)

/-! ### RETAIN and RELEASE (R278, R507, R508) -/

/-- Broadcast RETAIN on all four buses and POLL every chip until each reports RETAINED. -/
def State.retainStart (s : State) (c : Option Cmd) (code : Nat) : State :=
  let due := (List.finRange 4).flatMap fun (q : Fin 4) => (List.range (s.chips q)).map fun i => 32 * q.val + i
  let s := s.setPanel { s.panel with retain := some (c, s.now), retainDue := due }
  (List.finRange 4).foldl (fun s (q : Fin 4) =>
    (List.range (s.chips q)).foldl (fun s i => s.sbSubmit q ⟨i, 1, [], .retain⟩) (s.sbCast q 6 (leBytes 2 code))) s

/-- PANEL_RETAIN (R278). -/
def execPanelRetain (c : Cmd) (s : State) : Out :=
  .next (if s.mayStart c 0x0606 && s.panel.retain.isNone then
    if 1023 < c.arg 0 2 then s.refuse c 0x0108
    else (s.startCmd c).retainStart (some c) (c.arg 0 2)
  else s)

/-- PANEL_RELEASE (R278). -/
def execPanelRelease (c : Cmd) (s : State) : Out :=
  .next (if s.mayStart c 0x0607 then
    ((List.finRange 4).foldl (fun s (q : Fin 4) => s.sbCast q 7 []) s).done c []
  else s)

/-- Every chip has confirmed (R278): E473; an entry into LATENT lowers the rails without the SAFE and gate steps (R507). -/
def State.retainCheck (s : State) : State :=
  match s.panel.retain with
  | none => s
  | some (c, _) =>
    if s.panel.retainDue ≠ [] then s
    else
      let s := (s.setPanel { s.panel with retain := none }).raiseN 473 0 0
      match c with
      | some c => if s.waits c then s.done c [] else s
      | none => (s.setPanel { s.panel with st := .safeSeq, latent := true, seqCause := 0 }).railStart

/-- A POLL that confirms RETAINED is one of these. -/
def SbTrans.confirms (t : SbTrans) : Bool := match t.use with | .retain => true | _ => false

/-- The confirmations that have not begun are dropped; a transaction in progress is never cut short (R274). -/
def Port.dropRetain (p : Port) : Port := { p with sb := p.sb.take 1 ++ (p.sb.drop 1).filter fun t => !t.confirms }

/-- RETAIN_FAIL (R278, R507): a chip that has not confirmed within 10 ms raises E474; the first one ends the RETAIN. -/
def execRetainFail (q : Fin 4) (chip : Nat) (s : State) : Out :=
  .next (
    let key := 32 * q.val + chip
    let failed := (s.setPanel { s.panel with retain := none, retainDue := s.panel.retainDue.erase key }).raiseN 474 0 0
    if !s.panel.retainDue.contains key then s
    else
      match s.panel.retain with
      | none => failed
      | some (c, t) =>
        if t + 2500000 ≤ s.now then
          let s := { failed with ports := Vector.ofFn fun (q : Fin 4) => failed.ports[q].dropRetain }
          match c with
          | some c => if s.waits c then s.fail c 0x0C07 else s
          | none => s.transFail 0x0C07
        else s)

/-! ### The end of a transaction (R273, R274) -/

/-- What every POLL of chip i tells, in answer or failed (R272, R276, R278): its temperature, its CRC failures, its lock, and whether it has
confirmed RETAINED. -/
def State.pollTaken (s : State) (q : Fin 4) (i : Nat) (a : Option ChipPoll) : State :=
  let s := s.takeReading q i a
  match a with
  | none => s
  | some r =>
    let s := if r.crc = 0 then s else (s.addCtr (idDrvCrc q.val) r.crc).raiseN (460 + q.val) 0 0
    let s := if (s.port q).st = .up && !r.good (s.laneMask q) then s.trainPort q .retrain else s
    if r.chipState = 3 then (s.setPanel { s.panel with retainDue := s.panel.retainDue.erase (32 * q.val + i) }).retainCheck else s

/-- A POLL of a round has ended (R272, R276). -/
def State.polled (s : State) (q : Fin 4) (i : Nat) (a : Option ChipPoll) : State :=
  let s := s.setPort q { s.port q with round := (s.port q).round ++ [a] }
  let s := s.pollTaken q i a
  if s.polling q then s else s.roundDone q

/-- A confirming POLL has ended: a chip that has answered without RETAINED is POLLed again; after a failed POLL the next round's POLL
confirms (R274, R278). -/
def State.retainPolled (s : State) (q : Fin 4) (t : SbTrans) (a : Option ChipPoll) : State :=
  let again := s.panel.retain.isSome && match a with | none => false | some r => r.chipState != 3
  (s.sbPop q (if again then [t] else [])).pollTaken q t.chip a

/-- The head transaction of bus q fails (R274). -/
def State.sbFail (s : State) (q : Fin 4) : State :=
  match (s.port q).sb with
  | [] => s
  | t :: _ =>
    let s := s.sbError q
    match t.use with
    | .cfgWrite c => (s.sbPop q []).failFree c
    | .cfgRead c => (s.sbPop q []).failFree c
    | .poll => (s.sbPop q []).polled q t.chip none
    | .retain => s.retainPolled q t none
    | .own => s.sbPop q []

/-- A response of STATUS, LEN, payload and CRC (R273): its STATUS and payload, when its length and its CRC over STATUS to payload hold. -/
def sbParse (b : List Byte) : Option (Nat × List Byte) :=
  let n := leAt b 1 1 * 256 + leAt b 2 1
  let body := b.take (3 + n)
  if b.length = n + 5 ∧ b.drop (3 + n) = be16 (crc16 body) then some (leAt b 0 1, body.drop 3) else none

/-- When a response to the transaction in progress on bus q may start: after the request and the two turnaround cycles (R273). -/
def State.sbReply (s : State) (q : Fin 4) (t : SbTrans) : Nat := (s.port q).sbAt + ckTime (reqCk t.payload.length + 2)

/-- SB_RESPONSE (R273 to R276): the head transaction of bus q ends with the response's bytes, the last of which comes now; a response that
has started later than 64 CK cycles finds the transaction failed. -/
def execSbResponse (q : Fin 4) (bytes : List Byte) (s : State) : Out :=
  .next (
    match (s.port q).sb with
    | [] => s
    | t :: _ =>
      let whole := s.sbReply q t + ckTime (8 * bytes.length)
      if !s.sbOn q ∨ s.now < whole then s
      else if whole + ckTime 64 < s.now then s.sbFail q
      else
        match sbParse bytes with
        | none => s.sbFail q
        | some (status, payload) =>
          let answer := if status = 0 then some (pollOf payload) else none
          match t.use with
          | .cfgWrite c => let s := s.sbPop q []; if status ≠ 0 then s.failFree c else s.cfgWritten q t c
          | .cfgRead c =>
            let s := s.sbPop q []
            if status ≠ 0 then s.failFree c
            else
              let s := s.setChipCol q t.chip (leAt t.payload 0 1) (leAt payload 0 4)
              if s.waits c then s.done c (padTo 4 payload) else s
          | .poll => (s.sbPop q []).polled q t.chip answer
          | .retain => s.retainPolled q t answer
          | .own => s.sbPop q [])

/-- SB_TIMEOUT (R274): no response has started within 64 CK cycles of the request and its two turnaround cycles. -/
def execSbTimeout (q : Fin 4) (s : State) : Out :=
  .next (
    match (s.port q).sb with
    | [] => s
    | t :: _ => if s.sbReply q t + ckTime 64 ≤ s.now then s.sbFail q else s)

/-! ### Backlight (R284 to R286) -/

/-- The next raster tick's index. -/
def State.nextRaster (s : State) : Nat := s.expo.rasterTick + if s.expo.d2 then 2 else 1

/-- A stop sets D = 2 (R78, R478; log entry 24). -/
def State.stopD2 (s : State) (stop : Nat) : Bool := stop == 2 && s.pmu.mode != .flat

/-- A window of bytes over registers. -/
def winBytes (reg : Nat → Word) (base n : Nat) : List Byte :=
  (List.range n).map fun b => BitVec.ofNat 8 ((reg (base + b / 4)).toNat / 2 ^ (8 * (b % 4)))

/-- The frame for the next raster sub-frame (R284, R285): records, zones and steer state that will be in force then. -/
def State.blBytes (s : State) : List Byte :=
  let n := s.nextRaster
  let m := (s.expo.pend.filter (s.dueNow n)).foldl (fun m e => mergeStaged m e.fields) []
  let reg := s.overlay m
  let ctl := reg idBlCtrl
  let nlog := fld (reg idSteer) 1 0
  let d2 := match s.expo.sched with
    | some (st, k) => if k = n then s.stopD2 (if s.expo.stop < st then s.cascade st else st) else s.expo.d2
    | none => s.expo.d2
  let st := if d2 then n / 2 % 2 ^ (nlog - 1) else n % 2 ^ nlog
  let sl := fld ctl 19 12 + 1
  let zl := fld ctl 31 20
  let body := leBytes 1 (0xC0 + st) ++ be16 (5 + sl + zl) ++ winBytes reg (idBlSteer st 0) sl ++ winBytes reg (idBlZone 0) zl
  body ++ be16 (crc16 body)

/-- Has the start of the backlight frame come: arrival + C - LEAD in EASEL_0's timing? -/
def State.blDue (s : State) : Bool :=
  let e := s.easel 0
  decide (5 * e.cyc ≤ 24 * (s.now - e.arrival) + 5 * (s.reg idBlLead).toNat)

/-- BL_FRAME_START (R284): one frame in each raster sub-frame. -/
def execBlFrameStart (miso : Byte) (s : State) : Out :=
  .next (if s.rasterRuns && s.up dPl && s.easelRuns 0 && bit (s.reg idBlCtrl) 0 && s.panel.blK != some s.expo.rasterTick && s.blDue then
    let s := s.setPanel { s.panel with blFrame := some s.blBytes, blStart := s.now, blK := some s.expo.rasterTick }
    if miso = 0x5A then s else s.raiseN 471 0 0
  else s)

/-- At a raster tick (R285): a frame that is not finished is cut off, a finished one has been sent. -/
def State.blTick (s : State) : State :=
  match s.panel.blFrame with
  | none => s
  | some f =>
    let t := s.setPanel { s.panel with blFrame := none, blSent := s.blOut }
    if s.blWhole f then t else t.raiseN 470 0 0

end Sys2Proof.Machine
end

