-- ==== Sys2Proof/Machine/Calib.lean ====
section
/-!
DEFINITION. Calibration (chapter 19): drive statistics and wear, the brackets of both classes with their counts and times, and the
loading of a Panel Profile Image.
-/
namespace Sys2Proof.Machine

/-! ### Drive statistics and wear (R448, R449) -/

def State.agingRate (s : State) (ch b : Nat) : Nat := leAt s.cal.aging (32 * ch + 2 * b) 2
def State.agingKloss (s : State) (ch : Nat) : Nat := leAt s.cal.aging (0x60 + 4 * ch) 4
def State.agingTf (s : State) (band : Nat) : Nat := leAt s.cal.aging (0x70 + band) 1

/-- The place of region r among the regions of the tile in raster order (R122, R524). -/
def State.regionIx (s : State) (r : Nat) : Nat := r / 32 * s.qw + r % 32

def State.wearOf (s : State) (r ch : Nat) : Nat := mapGet (fun _ => 0) s.cal.wear (3 * s.regionIx r + ch)

/-- Set accumulator k of the copies' order (R524); it saturates (R449). -/
def State.setWearAt (s : State) (k n : Nat) : State :=
  { s with cal := { s.cal with wear := mapSet (fun _ => 0) s.cal.wear k (min n (2 ^ 64 - 1)) } }

def State.setWear (s : State) (r ch n : Nat) : State := s.setWearAt (3 * s.regionIx r + ch) n

/-- Read and clear the histograms of quadrant q (R448, R449). -/
def State.readHist (s : State) (q : Fin 4) : State :=
  let e := s.easel q
  let keys := (e.hist.map fun k => k.1 / 16).eraseDups
  let s := keys.foldl (fun s k =>
    let ch := k % 3
    let w := ((List.range 16).map fun b => mapGet (fun _ => 0) e.hist (16 * k + b) * s.agingRate ch b).sum
    s.setWear (k / 3) ch (s.wearOf (k / 3) ch + w * s.agingTf e.band.band / 64)) s
  s.setEasel q { s.easel q with hist := [] }

/-- DRIVE_HISTOGRAM_READ (R448, R449): once a second. -/
def execDriveHistogramRead (s : State) : Out :=
  .next (if s.fw && s.active && decide (s.cal.histAt + 250000000 ≤ s.now) then
    (List.finRange 4).foldl (fun s (q : Fin 4) => if s.easelRuns q then s.readHist q else s)
      { s with cal := { s.cal with histAt := s.now } }
  else s)

/-! ### Wear copies (R450, R524) -/

def State.wearSeq (s : State) (b : Nat) : Option Nat := s.copySeq (128 + 192 * b) 192 (544 + b)

/-- Write the wear accumulators into the older copy: 1,536 of them, of which a tile smaller than the full size uses the first. -/
def State.wearWrite (s : State) : State :=
  let w := olderCopy (s.wearSeq 0) (s.wearSeq 1)
  s.writeCopy (128 + 192 * w.1) 192 (544 + w.1) w.2
    ((List.range 1536).flatMap fun k => leBytes 8 (mapGet (fun _ => 0) s.cal.wear k)) .record

/-- Load the wear accumulators of the copy in force. -/
def State.wearLoad (s : State) : State :=
  match inForce (s.wearSeq 0) (s.wearSeq 1) with
  | none => s
  | some b =>
    let bytes := s.nvmPages (128 + 192 * b) 192
    (List.range 1536).foldl (fun s k => s.setWearAt k (leAt bytes (8 * k) 8)) s

/-! ### Counts, times and notices (R455 to R458) -/

/-- Write the NVM copy of a class's count with the time of its last bracket (R456, R523): 0 G, 1 L. -/
def State.saveCount (s : State) (cls : Fin 2) : State :=
  let b := if cls = 0 then s.cal.g else s.cal.l
  let time := leBytes 6 b.sec ++ leBytes 4 b.ns ++ leBytes 2 (b2n b.valid + 2 * b2n b.netlock)
  let s := (s.setCnt (2 + cls.val) b.count).ctrWrite (2 + cls.val) b.count time []
  { s with cal := { s.cal with savedAt := s.cal.savedAt.set cls s.now, dirty := s.cal.dirty &&& ~~~ BitVec.ofNat 2 (2 ^ cls.val) } }

/-- At a MODE_SET into STANDBY or LATENT both counts are written (R456). -/
def State.saveCounts (s : State) : State := (s.saveCount 0).saveCount 1

/-- BRACKET_COUNT_SAVE (R456): at most once per 10 minutes per class. -/
def execBracketCountSave (cls : Fin 2) (s : State) : Out :=
  .next (if s.fw && s.cal.dirty.getLsbD cls.val && decide (s.cal.savedAt[cls] + 150000000000 ≤ s.now) then s.saveCount cls else s)

/-- A bracket of a class has completed at time w (2^-16 ns). -/
def State.bracketTime (s : State) (b : BracketTime) (w : Nat) : BracketTime :=
  ⟨b.count + 1, secOf w, nsOf w, true, s.netlock⟩

/-- The BRACKET notice, E555 or E556 (R458): cause 0 for a completed bracket. -/
def State.bracketNote (s : State) (cls cause : Nat) : State :=
  let b := if cls = 0 then s.cal.g else s.cal.l
  let flags := b2n b.netlock + 2 * s.cal.lSet + 4 * b2n s.cal.clipped + (if cause = 0 then 0 else 8 + 16 * cause)
  (s.notice 2 (layout 16 [(0, 1, cls), (1, 1, b2n (cause != 0)), (2, 1, flags), (4, 4, b.count), (8, 4, b.sec), (12, 4, b.ns)])).raiseN
    (if cause = 0 then 555 else 556) cls b.count

/-- A class G bracket: the swap of tick k, whose edge was at view w (R447, R455, R457). -/
def State.bracketG (s : State) (k w : Nat) : State :=
  let s := { s with cal := { s.cal with g := s.bracketTime s.cal.g w, dirty := s.cal.dirty ||| 1 } }
  let s := (s.setCnt 2 s.cal.g.count).bracketNote 0 0
  match s.cal.gCmd with
  | none => s
  | some c =>
    let s := { s with cal := { s.cal with gCmd := none } }
    if s.waits c then s.done c (leBytes 2 s.rfc.genActive ++ List.replicate 6 0 ++ leBytes 8 k) else s

/-! ### Class L (R450 to R454) -/

/-- A region's light loss in units of 2^-16 (R451). -/
def State.lightLoss (s : State) (r ch : Nat) : Nat := min (s.wearOf r ch * s.agingKloss ch / 2 ^ 56) 16384

/-- The gain factor of a region (R451). -/
def gainFactor (loss lmin : Nat) : Nat := (rneDiv (2 ^ 32) (65536 - (loss - lmin))).toNat

/-- A coarse gain (R451). -/
def coarseGain (gb f : Nat) : Nat := min (rneShift ((gb * f : Nat) : Int) 16).toNat 255

/-- The minimum of a channel's losses over the regions of the tile. -/
def State.lossMin (s : State) (ch : Nat) : Nat := s.regions.foldl (fun m r => min m (s.lightLoss r ch)) 16384

/-- The region of hogel (x, y) of quadrant q. -/
def State.hogelRegion (s : State) (q : Fin 4) (x y : Nat) : Nat :=
  32 * ((y + quadBelow q * s.qh) / 64) + (x + quadRight q * 32 * s.qw) / 64

/-- The base copy of plane n of quadrant q, none when no profile has been loaded. -/
def State.basePlane (s : State) (q : Fin 4) (n : Nat) : Option (List Byte) := mapFind s.corr.base (8 * q.val + n)

/-- The element that an L bracket writes at (x, y) of plane n of quadrant q. -/
def State.bracketElem (s : State) (q : Fin 4) (n w : Nat) (base : List Byte) (x y : Nat) : Nat :=
  let gb := (byteAt base (y * w + x)).toNat
  if 2 ≤ n ∧ n < 5 then
    coarseGain gb (gainFactor (s.lightLoss (s.hogelRegion q x y) (n - 2)) (s.lossMin (n - 2)))
  else gb

/-- Store one plane through the Fixers (R211, R453): block by block from its elements. -/
def State.storeElems (s : State) (pl : Plane) (elem : Nat → Nat → Nat) : State :=
  let across := blocksAcross pl.lay pl.w
  (List.range pl.blocks).foldl (fun s b =>
    let raw := (List.range 8).flatMap fun j => (List.range 64).map fun i =>
      let x := 64 * (b % across) + i
      let y := 8 * (b / across) + j
      if x < pl.w ∧ y < pl.h then BitVec.ofNat 8 (elem x y) else (0 : Byte)
    let addr := pl.addr + 512 * b
    let f := fixerOf addr
    let c := s.fixCode f pl.lay false raw addr false
    (c.1.fixCount f.val c.2.1).storeNow pl b c.2.1.stored c.2.2) s

/-- The digest of what some ranges of the stack hold (R463). -/
def State.rangeDigest (s : State) (l : List (Nat × Nat)) : List Byte := Config.sha384 (l.flatMap fun r => s.dramRead r.1 r.2)

/-- The ranges of a plane: its slots and its entries. -/
def Plane.ranges (pl : Plane) : List (Nat × Nat) := [(pl.addr, 512 * pl.blocks), (pl.ent, 2 * pl.blocks)]

/-- Keys of what is kept: 0 the residual plane, then the Dodge planes, the ray map with the bound store, and the two tables. -/
def dodgeKey (q set n : Nat) : Nat := 1 + 8 * (2 * q + set) + n
def rayKey : Nat := 65
def xferKey : Nat := 66
def odKey : Nat := 67

/-- The DRAM copies of the RAYMAP section and of the bound store, in the ray-map area, and of the TRANSFER and OVERDRIVE sections, in the
firmware area (R127, R314, R496). Their places within the areas are log entry 23. -/
def rayCopy : Nat := 0x628000000
def boundCopy : Nat := 0x629000000
def xferCopy : Nat := 0x7E0000000
def odCopy : Nat := 0x7E0010000

/-- Keep the digest of what a section has loaded into some ranges. -/
def State.keepDigest (s : State) (key : Nat) (l : List (Nat × Nat)) : State :=
  { s with cal := { s.cal with digests := mapPut s.cal.digests key (l, s.rangeDigest l) } }

/-- Every kept range still has its digest and no uncorrectable error (R496). -/
def State.keptOk (s : State) : Bool := s.cal.digests.all fun e => s.rangeDigest e.2.1 == e.2.2 && e.2.1.all fun r => s.clean r.1 r.2

/-- The check reads the kept ranges as a DRAM_SCRUB of them does (R331, R496). -/
def State.keptScrub (s : State) : State := (s.cal.digests.flatMap fun e => e.2.1).foldl (fun s r => s.scrubRun r.1 r.2) s

/-- The Dodge set that is neither in force nor selected by a pending committed set (R453). -/
def State.lFind (s : State) : Option Nat := [0, 1].find? fun n => !s.dodgeInForce.contains n

/-- An L bracket starts (R452, R453). -/
def State.lStart (s : State) (c : Option Cmd) (byHours : Bool) : State :=
  { s with cal := { s.cal with lBusy := true, lTarget := s.lFind, lCmd := c, lTicks := 0, lByHours := byHours } }

/-- The automatic triggers of R452. -/
def State.lTrigger (s : State) : State :=
  let ctl := s.reg idCalCtrl
  if s.fw && bit ctl 0 && (s.pmu.mode == .flat || s.pmu.mode == .field) && !s.cal.lBusy && !s.cal.loading then
    let gap := max (fld ctl 15 8) 1 * 15000000000
    let moved := s.regions.any fun r =>
      match mapFind s.cal.lTemps r with
      | none => false
      | some t => decide (16 * fld (s.reg idRfcCtrl) 15 8 < (s.regionTemp r - t).natAbs)
    if 3840 ≤ s.cal.lMin then s.lStart none true
    else if bit ctl 1 && moved && (match s.cal.lAt with | none => true | some t => decide (t + gap ≤ s.now)) then s.lStart none false
    else s
  else s

/-- The running L bracket fails (R454, R457, R458). -/
def State.lFail (s : State) (cause : Nat) : State :=
  let c := s.cal.lCmd
  let s := ({ s with cal := { s.cal with lBusy := false, lTarget := none, lCmd := none } }).bracketNote 1 cause
  let s := match c with
    | none => s
    | some c => if s.waits c then s.fail c cause else s
  s.lTrigger

/-- The planes that a bracket writes, in order: quadrant and plane. -/
def bracketPlanes : List (Fin 4 × Nat) := (List.finRange 4).flatMap fun (q : Fin 4) => (List.range 8).map fun n => (q, n)

/-- Write one plane of the target set from the base copy (R451). -/
def State.bracketPlane (s : State) (set : Nat) (q : Fin 4) (n : Nat) : State :=
  let pl := s.dodgePlane q.val set n
  match s.basePlane q n with
  | none => s
  | some b => (s.storeElems pl (s.bracketElem q n pl.w b)).keepDigest (dodgeKey q.val set n) pl.ranges

/-- Does any coarse gain of the tile reach 255 (R451)? -/
def State.bracketClips (s : State) : Bool :=
  bracketPlanes.any fun e =>
    decide (2 ≤ e.2 ∧ e.2 < 5) &&
      match s.basePlane e.1 e.2 with
      | none => false
      | some b => (List.range (s.qh)).any fun y => (List.range (32 * s.qw)).any fun x => s.bracketElem e.1 e.2 (32 * s.qw) b x y == 255

/-- The planes that a bracket may have written when it fails (R454): at most those before the first without a base copy. -/
def State.bracketReach (s : State) : List (Fin 4 × Nat) := bracketPlanes.takeWhile fun e => (s.basePlane e.1 e.2).isSome

/-- The running L bracket fails behind some of its writes, how many is a free value (R454). -/
def State.lFailMidway (s : State) (set cause : Nat) : State :=
  let l := s.bracketReach
  let n := Config.freeBelow s.fresh (l.length + 1)
  ((l.take n).foldl (fun (s : State) e => s.bracketPlane set e.1 e.2) { s with fresh := s.fresh + 1 }).lFail cause

/-- May the bracket write its set now (R33, R207, R343)? -/
def State.bracketFree (s : State) (set : Nat) : Bool :=
  s.fabRuns && bracketPlanes.all fun e => s.planeFree (s.dodgePlane e.1.val set e.2)

/-- L_BRACKET_DONE (R451, R453 to R458): the target set's planes are written, or the bracket fails with cause 2 or 3. -/
def execLBracketDone (how : BracketEnd) (s : State) : Out :=
  .next (
    match s.cal.lTarget with
    | none => s
    | some set =>
      if !s.cal.lBusy || !s.fw || !s.bracketFree set then s
      else if how = .base ∨ bracketPlanes.any (fun e => (s.basePlane e.1 e.2).isNone) then s.lFailMidway set 2
      else if how = .hist then s.lFailMidway set 3
      else
        let clip := s.bracketClips
        let s := bracketPlanes.foldl (fun s e => s.bracketPlane set e.1 e.2) s
        let c := s.cal.lCmd
        let hours := s.cal.lByHours
        let l := s.bracketTime s.cal.l (wOf (s.view s.tickTb))
        let s := { s with cal := { s.cal with l := l, lBusy := false, lTarget := none, lCmd := none, lSet := set, clipped := clip, lMin := 0
                                              lAt := some s.now, lTemps := s.regions.map fun r => (r, s.regionTemp r)
                                              dirty := s.cal.dirty ||| 2 } }
        let s := (s.setCnt 3 l.count).bracketNote 1 0
        let s := if hours then s.wearWrite else s
        let s := match c with
          | none => s
          | some c => if s.waits c then s.done c (leBytes 1 set ++ leBytes 1 (b2n clip) ++ [0, 0] ++ leBytes 4 l.count) else s
        s.lTrigger)

/-- L_BRACKET_TARGET_TIMEOUT (R453, R454): 64 ticks without a target. -/
def execLBracketTargetTimeout (s : State) : Out :=
  .next (if s.cal.lBusy && s.cal.lTarget.isNone && decide (64 ≤ s.cal.lTicks) then s.lFail 1 else s)

/-- An arriving tick: one that applied a set evaluates the target again (R453). -/
def State.lTick (s : State) (applied : Bool) : State :=
  if s.cal.lBusy && s.cal.lTarget.isNone then
    { s with cal := { s.cal with lTicks := s.cal.lTicks + 1, lTarget := if applied then s.lFind else none } }
  else s

/-- FIELD_MINUTE (R452, R456, R523). -/
def execFieldMinute (s : State) : Out :=
  .next (if s.fw && s.pmu.mode == .field && decide (s.cal.minuteAt + 15000000000 ≤ s.now) then
    let n := s.cntVal 1 + 1
    let s := { s with cal := { s.cal with minuteAt := s.now, lMin := min (s.cal.lMin + 1) 4095 } }
    let s := s.setCnt 1 n
    let s := if n % 60 = 0 then s.ctrWrite 1 n s.recTime [] else s
    s.lTrigger
  else s)

/-- BRACKET_RUN (R457). -/
def execBracketRun (c : Cmd) (s : State) : Out :=
  .next (if s.mayStart c 0x0403 then
    match c.arg 0 1 with
    | 0 =>
      if bit (s.reg idRfcCtrl) 1 then s.refuse c 0x0409
      else if s.rfc.busy || s.rfc.ready || s.cal.gCmd.isSome then s.refuse c 0x0408
      else
        let s := s.startCmd c
        ({ s with cal := { s.cal with gCmd := some c } }).rfcTrigger
    | 1 => if s.cal.lBusy || s.cal.loading then s.refuse c 0x0408 else (s.startCmd c).lStart (some c) false
    | _ => s.refuse c 0x0108
  else s)

/-- BRACKET_STATUS (R457). -/
def execBracketStatus (c : Cmd) (s : State) : Out :=
  .next (if s.mayStart c 0x0404 then
    if 1 < c.arg 0 1 then s.refuse c 0x0108
    else
      let b := if c.arg 0 1 = 0 then s.cal.g else s.cal.l
      let busy := if c.arg 0 1 = 0 then s.rfc.busy || s.rfc.ready || s.cal.gCmd.isSome else s.cal.lBusy
      s.done c (leBytes 4 b.count ++ leBytes 4 b.sec ++ leBytes 4 b.ns ++ leBytes 1 (b2n b.valid + 2 * b2n b.netlock + 4 * b2n busy))
  else s)

/-! ### The Panel Profile Image (R459 to R464) -/

/-- A section table entry: type, target, flags, reserved, offset, length and digest. -/
structure PpiSec where
  typ : Nat
  target : Nat
  flags : Nat
  rsv : Nat
  off : Nat
  len : Nat
  digest : List Byte
deriving DecidableEq, Repr

def ppiSections (b : List Byte) : List PpiSec :=
  (List.range 37).map fun n =>
    let o := 0x40 + 64 * n
    ⟨leAt b o 2, leAt b (o + 2) 2, leAt b (o + 4) 2, leAt b (o + 6) 2, leAt b (o + 8) 4, leAt b (o + 12) 4, (b.drop (o + 16)).take 48⟩

def allZero (b : List Byte) (off n : Nat) : Bool := (List.range n).all fun i => byteAt b (off + i) == 0

/-- Check 1 of R461: its reserved bytes are those of the header and of the section table (log entry 139). -/
def ppiHeadOk (b : List Byte) : Bool :=
  decide (64 + 37 * 64 + 48 ≤ b.length) && leAt b 0 4 == 0x49505059 && leAt b 4 2 == 1 && leAt b 8 8 == b.length &&
    leAt b 0x21 1 == 0 && leAt b 0x2A 2 == 0 && allZero b 0x30 16 && (ppiSections b).all fun x => x.rsv == 0

/-- The fixed length of a section type, none where it depends on the panel. -/
def secLen (typ : Nat) : Option Nat := match typ with | 4 => some 24576 | 5 => some 156840 | 6 => some 128 | _ => none

/-- One section's own part of check 3: type, target, flags, alignment and place. -/
def secOk (total : Nat) (x : PpiSec) : Bool :=
  decide (1 ≤ x.typ ∧ x.typ ≤ 6) && x.flags == b2n (x.typ == 2 || x.typ == 3) && x.off % 64 == 0 &&
    decide (64 + 37 * 64 ≤ x.off ∧ x.off + x.len ≤ total - 48) && (if x.typ = 3 then decide (x.target < 32) else x.target == 0) &&
    (match secLen x.typ with | none => true | some n => x.len == n)

/-- Check 3 of R461. -/
def ppiTableOk (b : List Byte) : Bool :=
  let l := ppiSections b
  let count (t : Nat) : Nat := (l.filter fun x => x.typ == t).length
  leAt b 6 2 == 37 && l.all (fun x => secOk b.length x) && [1, 2, 4, 5, 6].all (fun t => count t == 1) && count 3 == 32 &&
    (List.range 32).all (fun t => l.any fun x => x.typ == 3 && x.target == t) &&
    (List.range 37).all fun i => (List.range i).all fun j =>
      match l[i]?, l[j]? with
      | some x, some y => decide (x.off + x.len ≤ y.off ∨ y.off + y.len ≤ x.off)
      | _, _ => true

def PpiSec.bytes (x : PpiSec) (b : List Byte) : List Byte := (b.drop x.off).take x.len

def PpiSec.image (x : PpiSec) (base : Nat) : YImage := ⟨base + x.off, x.len⟩

/-- The section of a type. -/
def ppiSec (b : List Byte) (typ : Nat) : PpiSec := ((ppiSections b).find? fun x => x.typ == typ).getD ⟨0, 0, 0, 0, 0, 0, []⟩

/-- The YTC sections with the planes they are for: the residual plane, and each Dodge plane in set 0. -/
def State.ppiPlanes (s : State) (b : List Byte) : List (PpiSec × Nat × Plane) :=
  ((ppiSections b).filter fun x => x.flags == 1).map fun x =>
    if x.typ = 2 then (x, 0, s.residPlane) else (x, dodgeKey (x.target % 4) 0 (x.target / 4), s.dodgePlane (x.target % 4) 0 (x.target / 4))

/-- The record of region number i of a RAYMAP section. -/
def rayRecord (sec : List Byte) (i : Nat) : List Byte := (sec.drop (0x20 + 1088 * i)).take 1088

/-- The checks of R126 on one record. -/
def rayRecordOk (r : List Byte) : Bool :=
  let f (o : Nat) : Int := signed 32 (leAt r o 4)
  let near (x lo hi : Int) : Bool := decide (lo ≤ x ∧ x ≤ hi)
  near (f 8) (512 * 65536) (2048 * 65536) && near (f 0x14) (512 * 65536) (2048 * 65536) &&
    near (f 0xC) (-64 * 65536) (64 * 65536) && near (f 0x10) (-64 * 65536) (64 * 65536) &&
    near (f 0) (-4096 * 256) (4096 * 256) && near (f 4) (-4096 * 256) (4096 * 256) &&
    f 0 == signed 24 (leAt r 0 3) && f 4 == signed 24 (leAt r 4 3) &&
    decide (leAt r 0x1C 4 < 2) && allZero r 0x30 16

/-- Check 6 of R461 for the ray map. -/
def State.rayMapOk (s : State) (sec : List Byte) : Bool :=
  sec.length == 0x20 + 1088 * s.regions.length && allZero sec 0x12 14 && (List.range s.regions.length).all fun i => rayRecordOk (rayRecord sec i)

/-- The coefficient record (R135). -/
def coeffOf (sec : List Byte) : Coeff :=
  ⟨signed 32 (leAt sec 0 4), signed 32 (leAt sec 4 4), signed 16 (leAt sec 8 2), signed 16 (leAt sec 10 2), signed 16 (leAt sec 12 2),
    signed 16 (leAt sec 14 2), signed 16 (leAt sec 16 2)⟩

/-- The band bounds B1 to B7, and STEPS, of an OVERDRIVE section. -/
def odBounds (sec : List Byte) : List Int := (List.range 7).map fun i => signed 16 (leAt sec (2 * i) 2)
def odSteps (sec : List Byte) : List Nat := (List.range 8).map fun i => leAt sec (16 + i) 1
def odEntries (sec : List Byte) : List Nat := (List.range 78408).map fun i => leAt sec (24 + 2 * i) 2
def xferEntries (sec : List Byte) : List Nat := (List.range 12288).map fun i => leAt sec (2 * i) 2

/-- Check 6 of R461 for the tables (R222). -/
def tablesOk (xfer od : List Byte) : Bool :=
  let b := odBounds od
  (xferEntries xfer).all (fun v => decide (v ≤ 16383)) && (odEntries od).all (fun v => decide (v ≤ 16383)) &&
    (odSteps od).all (fun v => decide (1 ≤ v ∧ v ≤ 3)) &&
    (List.range 6).all fun i => decide (b.getD i 0 + 512 ≤ b.getD (i + 1) 0)

/-- The trailer digest and PANEL_ID of an image. -/
def ppiTrailer (b : List Byte) : List Byte := b.drop (b.length - 48)
def ppiPanelId (b : List Byte) : List Byte := (b.drop 0x10).take 16

/-- Does the NVM record match an image (check 7 of R461)? -/
def State.ppiMatches (s : State) (b : List Byte) : Bool :=
  match s.ppiRecord with
  | none => false
  | some (_, r) => r.digest == ppiTrailer b && r.panelId == ppiPanelId b

/-- The checks of R461 in order, on the image's bytes: the reason of the first that fails, 0 when all pass. -/
def State.ppiCheck (s : State) (base : Nat) (b : List Byte) (acceptNew : Bool) : Nat :=
  let planes := s.ppiPlanes b
  let chk (e : PpiSec × Nat × Plane) : Nat := match s.imgCheck (e.1.image base) e.2.2 with | .inl r => r.1 | .inr _ => 0
  if !ppiHeadOk b then 0x0404
  else if Config.sha384 (b.take (b.length - 48)) ≠ ppiTrailer b then 0x0405
  else if !ppiTableOk b then 0x0404
  else if (ppiSections b).any fun x => Config.sha384 (x.bytes b) != x.digest then 0x0405
  else if leAt b 0x20 1 ≠ s.qw ∨ leAt b 0x22 2 ≠ s.qh ∨ planes.any (fun e => decide (16 ≤ e.1.len) && !s.imgGeom (e.1.image base) e.2.2) then 0x0406
  else if !s.rayMapOk ((ppiSec b 1).bytes b) then 0x0403
  else if !tablesOk ((ppiSec b 4).bytes b) ((ppiSec b 5).bytes b) then 0x0401
  else if planes.any fun e => chk e != 0 then 0x0301
  else if s.ppiRecord.isSome && !s.ppiMatches b && !acceptNew then 0x0407
  else 0

/-- PPI_LOAD (R126, R461): it runs until SLOW_COMMAND_DONE. -/
def execPpiLoad (c : Cmd) (s : State) : Out :=
  .next (if s.mayStart c 0x0401 then
    if s.rasterRuns then s.refuse c 0x020F
    else if s.cal.lBusy || s.cal.loading then s.refuse c 0x0408
    else
      let s := s.startCmd c
      { s with cal := { s.cal with loading := true } }
  else s)

/-- The bytes of a bound store entry (R168): four signed 1.15 values. -/
def DirBound.bytes (d : DirBound) : List Byte := [d.dx0, d.dx1, d.dy0, d.dy1].flatMap fun v => leBytes 2 (unsigned 16 v)

/-- The bound store entry of 8 bytes. -/
def boundOfBytes (b : List Byte) : DirBound :=
  ⟨signed 16 (leAt b 0 2), signed 16 (leAt b 2 2), signed 16 (leAt b 4 2), signed 16 (leAt b 6 2)⟩

/-- The on-die ray map from its copies in the stack (R127, R168, R496): the records, the coefficients and the bound store. -/
def State.rayReload (s : State) : State :=
  let sec := s.dramRead rayCopy (0x20 + 1088 * s.regions.length)
  let at_ := (List.range s.regions.length).zip s.regions
  { s with rayMap := { s.rayMap with
    loaded := true, coeff := coeffOf sec
    recs := at_.map fun e => (e.2, rayRecord sec e.1)
    bounds := at_.flatMap fun e => (List.range 4).map fun st => (4 * e.2 + st, boundOfBytes (s.dramRead (boundCopy + 32 * e.1 + 8 * st) 8)) } }

/-- Write a section's copy into the stack and keep its digest (R463). -/
def State.keepCopy (s : State) (key : Nat) (l : List (Nat × List Byte)) : State :=
  (l.foldl (fun s e => s.store .firmware e.1 e.2) s).keepDigest key (l.map fun e => (e.1, e.2.length))

/-- Step 2 of R462: ray map, bound store and residual plane; every powered cluster's lens store is filled. -/
def State.ppiStep2 (s : State) (base : Nat) (b : List Byte) : State :=
  let sec := (ppiSec b 1).bytes b
  let bounds := (List.range s.regions.length).flatMap fun i => (List.range 4).flatMap fun st => (dirBound (rayRecord sec i) st).bytes
  let s := (s.keepCopy rayKey [(rayCopy, sec), (boundCopy, bounds)]).rayReload
  let lens := BitVec.ofNat 12 (maskOf ((List.range 12).filter fun c => s.up (dEc c)))
  let s := { s with rayMap := { s.rayMap with lensFilled := lens }, thm := { s.thm with lastField := [] } }
  let im := (ppiSec b 2).image base
  match s.imgCheck im s.residPlane with
  | .inl _ => s
  | .inr l => (State.imgStoreAll s.residPlane 0 l s).keepDigest 0 s.residPlane.ranges

/-- Raw bytes of a plane of layout E8, row by row, from its decoded blocks. -/
def rasterBytes (pl : Plane) (blocks : List (List Byte)) : List Byte :=
  (List.range pl.h).flatMap fun y => (List.range pl.w).map fun x =>
    byteAt (blocks.getD (y / 8 * blocksAcross pl.lay pl.w + x / 64) []) (64 * (y % 8) + x % 64)

/-- Step 3 of R462: both Dodge sets and the base copy. -/
def State.ppiStep3 (s : State) (base : Nat) (b : List Byte) : State :=
  ((s.ppiPlanes b).filter fun e => e.2.1 != 0).foldl (fun s e =>
    match s.imgCheck (e.1.image base) e.2.2 with
    | .inl _ => s
    | .inr l =>
      let q := e.1.target % 4
      let n := e.1.target / 4
      let s := { s with corr := { s.corr with base := mapPut s.corr.base (8 * q + n) (rasterBytes e.2.2 (l.map fun x => x.2.2)) } }
      [0, 1].foldl (fun s set => (State.imgStoreAll (s.dodgePlane q set n) 0 l s).keepDigest (dodgeKey q set n) (s.dodgePlane q set n).ranges) s) s

/-- A sparse table from its entries. -/
def tableOf (l : List Nat) : List (Nat × Nat) := ((List.range l.length).zip l).filter fun e => e.2 != 0

/-- The transfer and overdrive tables from their copies in the stack (R221, R226, R496). -/
def State.tablesReload (s : State) : State :=
  let od := s.dramRead odCopy 156840
  let steps := odSteps od
  { s with corr := { s.corr with xfer := tableOf (xferEntries (s.dramRead xferCopy 24576)), od := tableOf (odEntries od)
                                 steps := Vector.ofFn fun i => steps.getD i.val 1, bounds := odBounds od } }

/-- After the check of the kept ranges the on-die copies that powered-down domains lost are reloaded from the copies in the stack (R496). -/
def State.keptReload (s : State) : State :=
  let s := if (mapFind s.cal.digests rayKey).isSome then s.rayReload else s
  if (mapFind s.cal.digests xferKey).isSome ∧ (mapFind s.cal.digests odKey).isSome then s.tablesReload else s

/-- Step 4 of R462: transfer and overdrive tables; every previous-frame store becomes invalid (R225). -/
def State.ppiStep4 (s : State) (b : List Byte) : State :=
  let s := ((s.keepCopy xferKey [(xferCopy, (ppiSec b 4).bytes b)]).keepCopy odKey [(odCopy, (ppiSec b 5).bytes b)]).tablesReload
  { s with cal := { s.cal with aging := (ppiSec b 6).bytes b }
           easels := Vector.ofFn fun q => { s.easels[q] with pfsValid := false, pfsWhole := false } }

/-- The NVM record of an accepted load (R462, R525), with whose second page the load ends: a new profile resets wear, L_MIN and the
validity of the bracket times, whose NVM copies are then behind (R456). -/
def State.ppiKeep (s : State) (c : Cmd) (b : List Byte) : State :=
  if s.ppiMatches b then
    match s.ppiRecord with
    | none => s
    | some (_, r) => ({ s with cnt := { s.cnt with loads := r.loads + 1 } }).writePpiRecord c (r.loads + 1) r.digest r.panelId r.time
  else
    let s := { s with cnt := { s.cnt with loads := 1 }
                      cal := { s.cal with wear := [], lMin := 0, dirty := 3
                                          g := { s.cal.g with valid := false }, l := { s.cal.l with valid := false } } }
    s.writePpiRecord c 1 (ppiTrailer b) (ppiPanelId b) ((b.drop 0x24).take 6)

/-- Step 1 of R462. -/
def State.ppiStep1 (s : State) : State := { s with rfc := { s.rfc with busy := false, ready := false } }

/-- The steps of R462 in order. -/
def ppiSteps (base : Nat) (b : List Byte) : List (State → State) :=
  [State.ppiStep1, fun s => s.ppiStep2 base b, fun s => s.ppiStep3 base b, fun s => s.ppiStep4 b]

/-- The first n steps of R462. -/
def State.ppiWrite (s : State) (base : Nat) (b : List Byte) (n : Nat) : State := ((ppiSteps base b).take n).foldl (fun s f => f s) s

/-- An image that passed its checks is written (R462 to R464), and then its record. When a write step fails, how many of the steps before it
were made is a free value. -/
def State.ppiTake (s : State) (c : Cmd) (base : Nat) (b : List Byte) (writeFailed : Bool) : State :=
  if writeFailed then
    let s := (State.ppiWrite { s with fresh := s.fresh + 1 } base b (Config.freeBelow s.fresh 5)).rfcKept
    ({ s with cal := { s.cal with profile := .invalid, loading := false } }).failFree c
  else ((s.ppiWrite base b 4).rfcTrigger.rfcKept).ppiKeep c b

/-- A PPI_LOAD whose image of the bytes b at base is refused with reason r, or written when r is 0. -/
def State.ppiEnd (s : State) (c : Cmd) (base : Nat) (b : List Byte) (writeFailed : Bool) (r : Nat) : State :=
  let excess : State := { s with cal := { s.cal with loading := false } }
  if r = 0x0407 then
    let old := match s.ppiRecord with | none => [] | some (_, x) => x.digest
    (excess.raiseN 557 (leAt (ppiTrailer b) 0 4) (leAt old 0 4)).refuse c r
  else if r ≠ 0 then excess.refuse c r
  else s.ppiTake c base b writeFailed

/-- Is the record of command c on its way to the NVM? -/
def State.ppiWriting (s : State) (c : Cmd) : Bool := s.nvm.jobs.any fun j => j.use == .ppi c

/-- May a PPI_LOAD read and write the stack now (R33, R207, R343)? -/
def State.ppiFree (s : State) (base n : Nat) : Bool :=
  s.fabRuns && s.room .fixer base n && s.planeFree s.residPlane && [0, 1].all s.bracketFree

/-- The image of a PPI_LOAD is read and checked, and its steps run (R461 to R464). That the panel has come ON since the command was accepted
makes no difference (log entry 152). -/
def State.ppiDone (s : State) (c : Cmd) (writeFailed : Bool) : State :=
  let base := c.arg 0 8
  let n := c.arg 8 4
  let b := s.dramRead base n
  if s.ppiWriting c then s
  else if !hostRange base n then s.ppiEnd c base b writeFailed 0x0404
  else if !s.ppiFree base n then s
  else (s.access .fixer base n).ppiEnd c base b writeFailed (s.ppiCheck base b ((c.arg 0xC 1).testBit 0))

end Sys2Proof.Machine
end

