-- ==== Sys2Proof/Machine/Thermal.lean ====
section
/-!
DEFINITION. Thermal model, throttle and trip (chapter 20): THM_UPDATE with the panel field, the throttle requests and stops, the trip
comparator and its page, and the two commands.
-/
namespace Sys2Proof.Machine

/-! ### The network (R466 to R468) -/

/-- The domains that a node's meter measures (R466), and whether one of them is powered and clocked. -/
def nodeDomains (n : Nat) : List Nat :=
  if n < 12 then [dEc n] else if n < 16 then [dEasel (n - 12)] else if n = 16 then [dUa] else if n = 17 then [dUb]
  else if n = 18 then [dPl, dTime] else if n = 19 then [dCtrl, dTime, dFab, dDmc] else [dDmc]

def State.clocked (s : State) (d : Nat) : Bool :=
  if d = dCtrl then s.locked 1 else if d = dTime then s.locked 2 else if d = dFab then s.locked 3 else if d = dDmc then s.locked 5
  else if d = dUa then s.locked 15 else if d = dUb then s.locked 16 else if d = dPl then (List.range 4).any fun q => s.locked (10 + q)
  else if d < 12 then s.locked (6 + (d - 8)) else s.locked 4

def State.nodeLive (s : State) (n : Nat) : Bool := (nodeDomains n).any fun d => s.up d && s.clocked d

/-- A node's mean meter power: a powered-down domain's meter reads 0 (R467). -/
def State.meterOf (s : State) (meters : List Nat) (n : Nat) : Nat := if (nodeDomains n).any s.up then meters.getD n 0 else 0

/-- The ambient estimate of a node's die. -/
def State.ambOf (s : State) (n : Nat) : Int := if n < 20 then s.thm.amb[0] else s.thm.amb[1]

/-- The update period in us. -/
def State.thmPeriodNs (s : State) : Nat := if s.thm.fast then 62500 else 1000000

/-- One step of node n (R467); the result saturates as a signed 16-bit value. -/
def State.nodeStep (s : State) (meters : List Nat) (n : Nat) : Int :=
  let t (k : Nat) : Int := s.thm.nodes.toList.getD k 0
  let flow := (List.range 24).foldl (fun (a : Int) j => a + Config.thmCond n j * (t n - t j)) 0
  let p := Config.thmPower n * (s.meterOf meters n : Int) - flow - Config.thmCondAmb n * (t n - s.ambOf n)
  clampInt (-32768) 32767 (t n + Config.thmRound ((s.thmPeriodNs : Int) * p) (Config.thmCap n))

/-- The predicted reading of a diode (R468). -/
def predict (nodes : List Int) (d : Nat) : Int :=
  Config.thmRound ((anchored d).foldl (fun (a : Int) n => a + Config.thmWeight d n * nodes.getD n 0) 0) (Config.thmWeightDen d)

/-- e of R468, none while the diode is open or shorted. -/
def diodeErr (nodes : List Int) (d : Nat) (x : Diode) : Option Int :=
  match x with
  | .valid t => some (t - predict nodes d)
  | _ => none

/-! ### Faults (R470) -/

/-- Advance one fault item: set when its cause is present, cleared after 16 updates without it. -/
def faultStep (v : Nat) (present : Bool) : Nat := if present then 1 else if v = 0 then 0 else if 16 ≤ v then 0 else v + 1

def maskNodes (l : List Nat) : Nat := maskOf l

/-- Apply the causes present at this update; each new fault raises E548. -/
def State.thmFaults (s : State) (present : Nat → Bool) : State :=
  let old := s.thm.faults
  let s := { s with thm := { s.thm with faults := Vector.ofFn fun k => faultStep old[k] (present k.val) } }
  (List.range 30).foldl (fun s k =>
    if present k && old.toList.getD k 0 == 0 then s.raiseN 548 (maskNodes (faultNodes k)) (faultCause k) else s) s

/-! ### The panel field (R143, R469) -/

/-- The chips whose columns overlap region r in the quadrants that hold part of it. -/
def State.regionChips (s : State) (r : Nat) : List (Nat × ChipTemp) :=
  let rx := r % 32
  let ry := r / 32
  let holds (q : Nat) : Bool := decide (64 * ry < (quadBelow (Fin.ofNat 4 q) + 1) * s.qh ∧ quadBelow (Fin.ofNat 4 q) * s.qh < 64 * ry + 64)
  s.thm.chips.filter fun e =>
    let q := e.1 / 32
    let x0 := quadRight (Fin.ofNat 4 q) * 512 * s.qw
    let lo := max (1024 * rx) x0 - x0
    let hi := min (1024 * rx + 1024) (x0 + 512 * s.qw) - x0
    decide (e.1 % 32 < s.rf (idSbChips q) 5 0) && holds q && decide (lo < hi ∧ e.2.colBase < hi ∧ lo < e.2.colBase + e.2.colCount)

/-- T_r, none when no reading counts. -/
def State.regionField (s : State) (r : Nat) : Option Int :=
  let l := ((s.regionChips r).filter fun e => decide (s.now ≤ e.2.at_ + 1000000)).map fun e => e.2.temp
  if l = [] then none else some (rneDiv l.sum l.length)

/-- Form the panel field; a region that becomes invalid raises E300 (R143, R573). -/
def State.formField (s : State) : State :=
  let l := s.regions.map fun r => (r, s.regionField r)
  let field := l.filterMap fun e => e.2.map fun t => (e.1, t)
  let bad := (l.filter fun e => e.2.isNone).map fun e => e.1
  let was := s.thm.invalid
  let last := field.foldl (fun m e => mapPut m e.1 e.2) s.thm.lastField
  let s := { s with thm := { s.thm with field := field, lastField := last, invalid := bad } }
  ((List.range s.regions.length).zip s.regions).foldl (fun s e =>
    if bad.contains e.2 && !was.contains e.2 then
      s.raiseN 300 (e.1 + 4096 * b2n ((s.regionChips e.2).any fun c => s.thm.chipsOut.contains c.1)) 0
    else s) s

/-! ### Throttle (R473 to R479) -/

/-- The 16 bytes of R484. -/
def State.thrPayload (s : State) : List Byte :=
  let t := s.thm
  let left := if t.thr = .grace then (t.graceEnd - s.now) / 250000 else 0
  let tick := match s.expo.sched with | some e => e.2 | none => t.stopTick
  layout 16 [(0, 1, thrCode t.thr), (1, 1, s.expo.stop), (2, 1, t.pendingStop), (3, 1, t.reqNode), (4, 2, unsigned 16 t.reqValue),
    (6, 2, left), (8, 8, tick)]

/-- The state of the throttle becomes x, and the THROTTLE notice is written. -/
def State.setThr (s : State) (x : ThrState) : State :=
  let s := { s with thm := { s.thm with thr := x } }
  s.notice 0 s.thrPayload

/-- The first tick that arrives at least one tick period from now, even when the change touches D = 2 (R475). -/
def State.stopTickAt (s : State) (even : Bool) : Nat :=
  let unit : Int := (s.rateDen : Int) * 1000000000 * 2 ^ 30
  let k := ((s.tick.base : Int) + -(Int.fdiv (-((s.tickTime - s.epoch) * s.rateNum)) (max unit 1)) + 1).toNat
  if even && k % 2 == 1 then k + 1 else k

/-- Schedule a stop: an escalation from its cascade's start, or a lift (R475, R477). -/
def State.schedStop (s : State) (stop : Nat) : State :=
  let last := if s.expo.stop < stop then s.cascade stop else stop
  { s with expo := { s.expo with sched := some (stop, s.stopTickAt (s.expo.d2 || s.stopD2 last)) } }

/-- An escalation is scheduled. -/
def State.escalating (s : State) : Bool := match s.expo.sched with | some (st, _) => decide (s.expo.stop < st) | none => false

def State.anyNode (s : State) (p : Nat → Int → Bool) : Bool := (List.range 24).any fun n => p n (s.nodeTemp n)

/-- Every node lies at least 5 degrees below its throttle threshold. -/
def State.cool (s : State) : Bool := !s.anyNode fun n t => decide (throttleAt n - 1280 < t)

/-- What an update does of the throttle (R473, R474, R477): a request, its early end or its withdrawal, and the time since when
every node has been cool. -/
def State.thrUpdate (s : State) : State :=
  let s := { s with thm := { s.thm with coolSince := if s.cool then some (s.thm.coolSince.getD s.now) else none } }
  if !s.fw then s
  else if s.thm.thr = .grace then
    if s.expo.sched.isNone && s.anyNode fun n t => decide ((if n < 20 then 105 * 256 else 95 * 256) ≤ t) then
      { s with thm := { s.thm with graceEnd := min s.thm.graceEnd s.now } }
    else if s.cool && s.expo.sched.isNone then
      ({ s with thm := { s.thm with pendingStop := 0 } }).setThr .none
    else s
  else if s.active && s.thm.thr == .none && s.expo.stop == 0 && s.expo.sched.isNone then
    match (List.range 24).find? fun n => decide (throttleAt n ≤ s.nodeTemp n) with
    | none => s
    | some n =>
      let pend := s.cascade 1
      let s := { s with thm := { s.thm with pendingStop := pend, reqNode := n, reqValue := s.nodeTemp n
                                            graceEnd := s.now + s.rf idThmCtrl 15 0 * 250000 } }
      (s.raiseN 545 (n + 256 * pend) (unsigned 16 (s.nodeTemp n))).setThr .grace
  else s

/-- THROTTLE_GRACE_END (R475). -/
def execThrottleGraceEnd (s : State) : Out :=
  .next (if s.fw && s.thm.thr == .grace && s.expo.sched.isNone && decide (s.thm.graceEnd ≤ s.now) then s.schedStop 1 else s)

/-- THROTTLE_CHECK (R476, R479): every 500 ms while a stop below 3 is in force. -/
def execThrottleCheck (s : State) : Out :=
  .next (if s.fw && decide (0 < s.expo.stop ∧ s.expo.stop < 3 ∧ s.thm.checkAt + 125000000 ≤ s.now) then
    let s := { s with thm := { s.thm with checkAt := s.now } }
    if (s.anyNode fun n t => decide (throttleAt n ≤ t)) && !s.escalating then s.schedStop (s.expo.stop + 1) else s
  else s)

/-- The lift of R477: the lowest stop at which the exposure in force fits, or LIFT_BLOCKED. -/
def State.tryLift (s : State) : State :=
  match (List.range s.expo.stop).find? fun j => s.inForceReason s.pmu.mode j == 0x0200 with
  | some j => s.schedStop j
  | none =>
    let s := { s with thm := { s.thm with liftTried := s.thm.coolSince } }
    if s.thm.thr = .liftBlocked then s else s.setThr .liftBlocked

/-- THROTTLE_LIFT (R477): every node has stayed cool for 1 s. A lift that is blocked is tried again at a COMMIT, or after another
such second. -/
def execThrottleLift (s : State) : Out :=
  .next (
    match s.thm.coolSince with
    | none => s
    | some t =>
      if s.fw && decide (0 < s.expo.stop) && s.expo.sched.isNone && (s.thm.thr != .liftBlocked || s.thm.liftTried != some t)
        && decide (t + 250000000 ≤ s.now) then s.tryLift else s)

/-- At each COMMIT that is applied the firmware tries a blocked lift again (R477). -/
def State.liftAgain (s : State) : State :=
  match s.thm.coolSince with
  | none => s
  | some t => if s.fw && s.thm.thr == .liftBlocked && s.expo.sched.isNone && decide (t + 250000000 ≤ s.now) then s.tryLift else s

/-- Step 5 of R51 (R78, R80, R475): the scheduled stop is enforced with its cascade. When the cascade would set D = 2 at an odd tick,
it waits for the next. -/
def State.stopStep (s : State) (k : Nat) : State :=
  match s.expo.sched with
  | none => s
  | some (st, kt) =>
    if k < kt then s
    else
      let old := s.expo.stop
      let new := if old < st then s.cascade st else st
      if s.stopD2 new ∧ k % 2 = 1 then { s with expo := { s.expo with sched := some (st, k + 1) } }
      else
        let s := { s with expo := { s.expo with sched := none, stop := new, d2 := s.stopD2 new }
                          thm := { s.thm with stopTick := k, checkAt := s.now, pendingStop := if new = 0 then 0 else s.thm.pendingStop } }
        let s := s.raiseN 546 (old + 256 * new) 0
        let s := if old < st ∧ new ≠ st then s.raiseN 294 (new + 256 * st) 0 else s
        s.setThr (if new = 0 then .none else .enforced)

/-- A mode change out of FLAT, FIELD and SERVICE closes any request and lifts any stop (R478). -/
def State.thrClose (s : State) : State :=
  let old := s.expo.stop
  if s.thm.thr = .none ∧ old = 0 ∧ s.expo.sched.isNone then s
  else
    let s := { s with expo := { s.expo with sched := none, stop := 0, d2 := false }, thm := { s.thm with pendingStop := 0 } }
    let s := if old = 0 then s else s.raiseN 546 old 0
    s.setThr .none

/-! ### The update (R466 to R474) -/

/-- The diode monitor in AON (R482): since when both diodes have been valid and at most 85 degrees, and whether one was open or
shorted after a trip. -/
def State.takeDiodes (s : State) (base stack : Diode) : State :=
  let ok (d : Diode) : Bool := match d with | .valid t => decide (t ≤ 85 * 256) | _ => false
  let both := ok base && ok stack
  let faulty (d : Diode) : Bool := match d with | .valid _ => false | _ => true
  { s with thm := { s.thm with diodes := #v[base, stack], restartSince := if both then some (s.thm.restartSince.getD s.now) else none }
           pmu := { s.pmu with stuckOff := s.pmu.stuckOff || (s.pmu.tripped && (faulty base || faulty stack)) } }

/-- Refresh at the short interval (R322). -/
def State.refreshRate (s : State) : State :=
  let t := [20, 21, 22, 23].foldl (fun (m : Int) n => max m (s.nodeTemp n)) (s.nodeTemp 20)
  if 85 * 256 < t ∧ !s.dmc.ref2x then ({ s with dmc := { s.dmc with ref2x := true } }).raiseN 195 0 0
  else if t ≤ 83 * 256 ∧ s.dmc.ref2x then { s with dmc := { s.dmc with ref2x := false } }
  else s

/-- Warnings (R472). -/
def State.warnStep (s : State) : State :=
  (List.range 24).foldl (fun s n =>
    let t := s.nodeTemp n
    let b := BitVec.ofNat 24 (2 ^ n)
    let w := s.thm.warned.getLsbD n
    if warnAt n ≤ t ∧ !w then ({ s with thm := { s.thm with warned := s.thm.warned ||| b } }).raiseN 544 n (unsigned 16 t)
    else if t ≤ warnAt n - 512 ∧ w then { s with thm := { s.thm with warned := s.thm.warned &&& ~~~ b } }
    else s) s

/-- The update period (R467). -/
def State.fastStep (s : State) : State :=
  let near := s.anyNode fun n t => decide (throttleAt n - 1280 ≤ t)
  let far := !s.anyNode fun n t => decide (throttleAt n - 1536 ≤ t)
  { s with thm := { s.thm with fast := if near then true else if far then false else s.thm.fast } }

/-- VDDA is up. -/
def State.vddaUp (s : State) : Bool := s.pmu.pwrEn.getLsbD 0 && s.pmu.pwrPg.getLsbD 0

/-- One update of THM. -/
def State.thmUpdate (s : State) (meters : List Nat) (base stack : Diode) : State :=
  let s := s.takeDiodes base stack
  let nodes : Vector Int 24 := Vector.ofFn fun n => s.nodeStep meters n.val
  let l := nodes.toList
  let err (d : Nat) : Option Int := diodeErr l d (if d = 0 then base else stack)
  let amb : Vector Int 2 := Vector.ofFn fun d =>
    match err d.val with | none => s.thm.amb[d] | some e => s.thm.amb[d] + Config.thmRound e 16
  let dis : Vector Nat 2 := Vector.ofFn fun d =>
    match err d.val with | none => 0 | some e => if 2048 < e.natAbs then s.thm.disagree[d] + 1 else 0
  let now (n : Nat) : Nat := s.meterOf meters n
  let same := (List.range 24).map fun n =>
    if s.nodeLive n && (now n == s.thm.meters.getD n (now n + 1) || now n == Config.meterFull n) then s.thm.same.getD n 0 + 1 else 0
  let s := { s with thm := { s.thm with nodes := nodes, amb := amb, disagree := dis, meters := (List.range 24).map now, same := same } }
  let open_ (d : Diode) : Bool := match d with | .opened => true | _ => false
  let short (d : Diode) : Bool := match d with | .shorted => true | _ => false
  let present (k : Nat) : Bool :=
    if k = 0 then open_ base else if k = 1 then open_ stack else if k = 2 then short base else if k = 3 then short stack
    else if k < 28 then decide (8 ≤ same.getD (k - 4) 0) else decide (3 ≤ dis.toList.getD (k - 28) 0)
  let s := (((s.thmFaults present).fastStep).warnStep).refreshRate
  let s := (s.formField).rfcThm
  let s := (s.lTrigger).thrUpdate
  { s with thm := { s.thm with updates := (s.thm.updates + 1) % 2 ^ 32, updateTick := s.expo.tick, updateAt := s.now } }

/-- THM_UPDATE (R467): every 1 ms, or every 62.5 us. The diode monitor of AON takes every reading, whatever THM's period, and while CTRL or
its clock is down (R480, R482). -/
def execThmUpdate (meters : List Nat) (base stack : Diode) (s : State) : Out :=
  .next (if s.up dCtrl && s.locked 1 && decide (s.thm.updateAt + (if s.thm.fast then 15625 else 250000) ≤ s.now) then s.thmUpdate meters base stack
  else if s.vddaUp then s.takeDiodes base stack else s)

/-! ### Trip (R480 to R482, R526) -/

/-- What reaches its trip threshold (R480): nodes by their model values, then the valid diodes, diode d as 24 + d. -/
def State.tripCauses (s : State) : List (Nat × Int) :=
  let hot (n : Nat) : Option (Nat × Int) :=
    let t := s.thm.nodes.toList.getD n 0
    if s.up dCtrl ∧ tripAt n ≤ t then some (n, t) else none
  let diode (d : Fin 2) : Option (Nat × Int) :=
    match s.thm.diodes[d] with
    | .valid t => if (if d = 0 then 110 else 100) * 256 ≤ t then some (24 + d.val, t) else none
    | _ => none
  (List.range 24).filterMap hot ++ (List.finRange 2).filterMap diode

/-- TRIP_PAGE_WRITE (R481, R526): after the power-down and any write in progress the PMU writes the page into counter ring 4. -/
def execTripPageWrite (s : State) : Out :=
  .next (
    match s.pmu.tripDetail with
    | none => s
    | some (node, value, mode, tick) =>
      if s.pmu.tripped && s.pmu.powered == 1 && s.nvm.jobs == [] && !s.pmu.tripPaged then
        let top := (s.ctrTop 4).getD (15, 0)
        let n := (match s.ctrTop 4 with | none => 0 | some (i, _) => leAt (s.nvmPage (64 + i)) 8 8) + 1
        let page := 64 + (top.1 + 1) % 16
        let bytes := ctrPage (top.2 + 1) 4 n s.recTime (leBytes 4 node ++ leBytes 4 (unsigned 32 value) ++ leBytes 4 mode ++ leBytes 4 tick
          ++ leBytes 4 (maskOf s.pmu.tripMore))
        let s := (s.setCnt 4 n)
        let s := { s with pmu := { s.pmu with tripPaged := true } }
        if s.nvmProtected page then s else s.nvmSubmit ⟨page, bytes, 1, .tripPage⟩
      else s)

/-! ### Commands (R483, R484) -/

/-- An entry of THERMAL_READ for node n. -/
def State.nodeEntry (s : State) (n : Nat) : List Byte :=
  leBytes 2 (unsigned 16 (s.nodeTemp n)) ++ leBytes 1 (1 + 2 * b2n (s.nodeFault n)) ++ [0]

/-- An entry for a region; the value of an invalid one is the free value given. -/
def State.fieldEntry (s : State) (r : Nat) (f : Word) : List Byte :=
  match mapFind s.thm.field r with
  | some t => leBytes 2 (unsigned 16 t) ++ leBytes 1 1 ++ [0]
  | none => leBytes 2 (fld f 15 0) ++ leBytes 1 0 ++ [0]

/-- THERMAL_READ (R483). -/
def execThermalRead (c : Cmd) (s : State) : Out :=
  .next (if s.mayStart c 0x0901 then
    let set := c.arg 0 1
    let first := c.arg 2 2
    let n := c.arg 4 2
    let all := if set = 0 then 24 else s.regions.length
    if 1 < set ∨ n = 0 ∨ 512 < n then s.refuse c 0x0108
    else if all < first + n then s.refuse c 0x0901
    else if !resultOk (c.arg 8 8) (16 + 4 * n) then s.refuse c 0x010A
    else if !s.resultRoom (c.arg 8 8) (16 + 4 * n) then s
    else
      let head := leBytes 4 s.thm.updates ++ leBytes 4 s.thm.updateTick ++ leBytes 1 (b2n s.thm.fast) ++ List.replicate 7 0
      let base := s.fresh
      let body := (List.range n).flatMap fun i =>
        if set = 0 then s.nodeEntry (first + i) else s.fieldEntry (s.regions.getD (first + i) 0) (Config.freeWord (base + i))
      let s := if set = 0 then s else { s with fresh := base + n }
      (s.putResult (c.arg 8 8) (head ++ body)).done c []
  else s)

/-- THROTTLE_STATUS (R484). -/
def execThrottleStatus (c : Cmd) (s : State) : Out := .next (if s.mayStart c 0x0902 then s.done c s.thrPayload else s)

end Sys2Proof.Machine
end

