-- ==== Sys2Proof/Machine/Tick.lean ====
section
/-!
DEFINITION. The arrival of a tick (R51, R68, R79, R235): the end of the raster sub-frame in progress, the six steps in order, the start
of the next raster sub-frame, and what waits for ticks. Also the SAFELIGHT window (R498 to R500), which the last tick of an active
mode shows first.
-/
namespace Sys2Proof.Machine

/-! ### The SAFELIGHT window (R277, R498 to R501) -/

/-- Columns X0 and count of the window's segment on PL_SB_0 or PL_SB_1, in quadrant-local hogels (R498). -/
def State.safeSeg (s : State) (b cut : Nat) : Nat × Nat :=
  let x0 := s.rf idSafePos 15 0
  let x1 := x0 + s.rf idSafeSize 15 0
  if b = 0 then (x0, min x1 cut - x0) else (max x0 cut - cut, x1 - max x0 cut)

/-- Bytes of a segment of n hogels. -/
def segBytes (n : Nat) : Nat := ceilDiv (3 * n) 8

/-- Bytes of one row of the image (R499). -/
def State.safeRow (s : State) (cut : Nat) : Nat := segBytes (s.safeSeg 0 cut).2 + segBytes (s.safeSeg 1 cut).2

/-- The payload of a WINDOW command (R275). -/
def windowPayload (x y w rep : Nat) (data : List Byte) : List Byte :=
  leBytes 2 x ++ leBytes 2 y ++ leBytes 2 w ++ leBytes 1 rep ++ data

/-- One refresh: a WINDOW command for each row on each bus whose segment is not empty (R500). -/
def State.safeRefresh (s : State) : State :=
  let cut := s.pmu.safeCut
  let row := s.safeRow cut
  let y0 := s.rf idSafePos 31 16
  (List.range (s.rf idSafeSize 31 16)).foldl (fun s i =>
    (List.finRange 2).foldl (fun s (b : Fin 2) =>
      let g := s.safeSeg b.val cut
      let off := i * row + (if b = 0 then 0 else segBytes (s.safeSeg 0 cut).2)
      let data := (List.range (segBytes g.2)).map fun k => mapGet dram0 s.pmu.aonSram (off + k)
      if g.2 = 0 then s
      else s.sbCast (Fin.ofNat 4 b.val) 5 (windowPayload g.1 (y0 + i) g.2 (s.rf idSafeCtrl 8 8) data)) s) s

/-- The time from one refresh to the next, in units of 4 ns. -/
def State.safePeriod (s : State) : Nat := 250000000 / max 1 (s.rf idSafeCtrl 4 0)

/-- SAFELIGHT_REFRESH (R500, R503): once every 1 / RATE s, while the window is shown. -/
def execSafelightRefresh (s : State) : Out :=
  .next (
    match s.pmu.refreshAt with
    | none => s
    | some t =>
      if t ≤ s.now then
        let s := s.safeRefresh
        { s with pmu := { s.pmu with refreshAt := some (t + s.safePeriod) } }
      else s)

/-- At the tick that stops the raster on the way into SAFELIGHT: an all-zero row on PL_SB_2 and PL_SB_3, then the first full window. The
place of the zero row is the model's (log entry 40): the whole width of row 0. -/
def State.safeFirst (s : State) : State :=
  let zero := windowPayload 0 0 (32 * s.qw) 1 (List.replicate (segBytes (32 * s.qw)) 0)
  let s := ((s.sbCast 2 5 zero).sbCast 3 5 zero).safeRefresh
  { s with pmu := { s.pmu with refreshAt := some (s.now + s.safePeriod) } }

/-! ### The sub-frame that ends -/

/-- Step 1 of R51 (R68 to R70): the live counters are copied and restart, and the configuration that produced them is latched. -/
def State.snapshot (s : State) : State :=
  let s := (List.finRange 4).foldl (fun s (q : Fin 4) => s.urgFlush q) s
  let l := s.liveSplit
  { s with regs := { s.regs with snap := (s.regs.snap.filter fun e => decide (e.1 < 0x1000)) ++ l.1, live := l.2
                                 clock := { s.regs.clock with before := [] } }
           expo := { s.expo with snapSeq := s.expo.rasterTick, latHold := s.expo.hold, latTransp := s.expo.transp
                                 latStop := s.expo.stop, latD2 := s.expo.d2 }
           rfc := { s.rfc with snapGen := s.rfc.genActive }
           dmc := { s.dmc with ceRaised := 0 } }

/-- The raster sub-frame of quadrant q ends (R37, R174, R225, R245, R256): with lines left to send it underruns by an early tick, and the
line in progress is cut off for the abort message (R266); what the line buffer still holds is returned. -/
def State.rasterEnd (s : State) (q : Fin 4) : State :=
  let s := (s.linkFill q).loupeEnd q
  let e := s.easel q
  let early := e.st == .running && decide (e.sentLines < 16 * s.qh)
  let s := if early then s.underrun q e.sentLines 2 else s
  let s := if (s.easel q).st = .aborted then s.easelStop q else s
  let s := if early then s.sendAbort q e.sentLines 2 else s
  let e := s.easel q
  let s := if e.st = .running then s.setEasel q { e with pfsValid := e.pfsValid || e.pfsWhole } else s
  s.dormantEnd q

/-! ### The steps -/

/-- Does a raster sub-frame of quadrant q start at this tick (R235, R271)? -/
def State.rasterStarts (s : State) (q : Fin 4) : Bool :=
  s.rasterRuns && !s.leaving && s.easelRuns q && (s.port q).st == .up

/-- Step 6 of R51 for quadrant q (R228, R229), when a raster sub-frame of it starts (R271); in FLAT the band is not evaluated (R215), under
throttle stop 3 it is (log entry 146). -/
def State.bandTick (s : State) (q : Fin 4) : State :=
  let e := s.easel q
  if !s.rasterStarts q then s
  else if s.pmu.mode == .field || s.pmu.mode == .service then
    let l := (s.quadRegions q).map s.regionTemp
    let tq := l.foldl (fun m t => max m t) (l.headD s.rayMap.coeff.tRef)
    let r := bandStep s.corr.bounds tq e.bandFirst e.band
    let s := s.setEasel q { e with band := r.1, bandFirst := false }
    if r.2 then s.raiseN (360 + 16 * q.val) (e.band.band + 256 * r.1.band) 0 else s
  else s.setEasel q { e with band := bandAge e.band }

/-- Steps 3 to 5 of R51 at raster tick m: committed sets, none of which takes effect on a way out of FLAT, FIELD and SERVICE (R487), the
Refocus swap with its class G bracket (R447), and the throttle stop. -/
def State.tickSteps (s : State) (m : TickMsg) : State :=
  let k := m.idx
  let s := if s.leaving then s.endPending 0x020E else s
  let applied := s.expo.pend.any fun e => e.due k
  let s := s.applyDue k
  let act := s.rfc.active
  let s := s.rfcTick m
  let s := if s.rfc.active = act then s else s.bracketG k m.view
  let s := s.stopStep k
  let s := if applied then s.liftAgain else s
  s.lTick applied

/-- A cull input has changed at this tick (R174, R306), or a port's lanes or rate (R270, R272): `key` and `ctl` are as they were. -/
def State.tickChanges (s : State) (key : CullKey) (ctl : List Word) : State :=
  let s := (if s.cullKey = key then s else s.wakePlates.publishReach).divideWays
  if s.linksOn then
    (List.finRange 4).foldl (fun s (q : Fin 4) => if ctl.getD q.val 0 = s.reg (idPlCtrl q.val) then s else s.trainPort q .train) s
  else s

def State.plCtrls (s : State) : List Word := (List.range 4).map fun q => s.reg (idPlCtrl q)

/-! ### What the tick starts -/

/-- On a way out of FLAT, FIELD and SERVICE no raster sub-frame starts (R487, R501, R507): LATENT broadcasts
RETAIN, SAFELIGHT shows its window. -/
def State.leaveTick (s : State) : State :=
  let s := (List.finRange 4).foldl (fun s (q : Fin 4) => s.setEasel q
    { s.easel q with st := .idle, abort := none, rows := [], strips := [], gck := 0, gsp := false, goe := true, prevArrival := none }) s
  match s.pmu.trans with
  | none => s
  | some t =>
    if t.second then s
    else
      let s := { s with pmu := { s.pmu with trans := some { t with second := true } } }
      match t.target with
      | .latent => s.retainStart none (s.rf idLatentThresh 9 0)
      | .safelight => s.safeFirst
      | _ => s

/-- Strobe m at raster tick k (R444): an edge still due is missed; the next one falls due when its steer states include this one. -/
def State.strobeTick (s : State) (k : Nat) (m : Fin 4) : State :=
  let b := s.time.strobes[m]
  let w := s.reg (idStbCtrl m.val)
  let s := if b.due.isSome && !s.panel.strobesHeld then s.raiseN 517 0 0 else s
  let fires := s.rasterRuns && !s.leaving && bit w 0 && bit w (4 + s.steerOf k)
  s.setStrobe m { b with due := if fires then some k else none }

/-- A waiting SERVICE_PATTERN takes effect and its command completes (R511). -/
def State.patternTick (s : State) : State :=
  match s.expo.patternNext with
  | none => s
  | some (c, p) =>
    let s := { s with expo := { s.expo with pattern := p, patternNext := none } }
    if s.waits c then s.done c [] else s

/-- A tick passes for a waiting SERVICE_CAPTURE (R512). -/
def State.captureTick (s : State) : State :=
  match s.loads.capture with
  | none => s
  | some (c, n, k) =>
    if n ≤ 1 then
      let s := { s with loads := { s.loads with capture := none } }
      if s.waits c then s.fail c 0x0C08 else s
    else { s with loads := { s.loads with capture := some (c, n - 1, k) } }

/-- What waits for any tick: TICK_WAIT (R400), a pattern, a capture, and the waits of Contact (R303, R304). -/
def State.tickWaits (s : State) (k : Nat) : State :=
  let s := if s.fw then s.tickWaitDone k else s
  ((s.patternTick).captureTick).ctTick

/-- Quadrant q takes the step count of its band's overdrive tables for the raster sub-frame (R226, R231). -/
def State.odTake (s : State) (q : Fin 4) : State :=
  let e := s.easel q
  if s.up (dEasel q.val) then s.setEasel q { e with odSteps := s.corr.steps.toList.getD e.band.band 1 } else s

/-- A raster tick; `lost` says that ticks were skipped or stretched before it (R235), s0 is the state at its arrival (R52). -/
def State.rasterTick (s s0 : State) (m : TickMsg) (lost : Bool) : State :=
  let k := m.idx
  let key := s.cullKey
  let ctl := s.plCtrls
  let s := s.snapshot.ledgerCheck s0
  let s := (List.finRange 4).foldl (fun s (q : Fin 4) => s.rasterEnd q) s
  let s := (s.tickSteps m).ctOverrides
  let s := { s with expo := { s.expo with rasterTick := k, ppsSize := s.reg idRasterSize } }
  let s := s.tickChanges key ctl
  let s := (List.finRange 4).foldl (fun s (q : Fin 4) => s.bandTick q) s
  let s := (List.finRange 4).foldl (fun s (q : Fin 4) => s.odTake q) s
  let s := s.blTick
  let s := { s with loads := { s.loads with engHeld := s.loads.engHeld && !s.locked 4 } }
  let s := if s.leaving then s.leaveTick else (List.finRange 4).foldl (fun s (q : Fin 4) => s.rasterBegin q k lost) s
  (List.finRange 4).foldl (fun s (m : Fin 4) => s.strobeTick k m) s

/-- A tick that is no raster tick under D = 2 (R79): the Ledger check, and the wait of an L bracket for its target (R453). -/
def State.oddTick (s s0 : State) (lost : Bool) : State :=
  let s := (s.ledgerCheck s0).lTick false
  if lost then { s with easels := Vector.ofFn fun (q : Fin 4) => { s.easels[q] with prevArrival := none } } else s

/-- TICK_ARRIVAL (R31, R51, R79): the oldest tick on its way arrives. -/
def execTickArrival (s : State) : Out :=
  .next (
    match s.tick.toArrive with
    | [] => s
    | m :: rest =>
      if s.up dTime && s.up dCtrl then
        let s1 := { s with tick := { s.tick with toArrive := rest }, expo := { s.expo with tick := m.idx, ticked := true } }
        let lost := m.skipped != 0
        let s2 := if s1.expo.d2 && m.idx % 2 == 1 then s1.oddTick s lost else s1.rasterTick s m lost
        s2.tickWaits m.idx
      else s)

end Sys2Proof.Machine
end

