-- ==== Sys2Proof/Machine/Ucie.lean ====
section
/-!
DEFINITION. The UCIe modules and the Ihlian Streaming Transactions (chapter 14): malformed transactions, posted writes, reads and
completions, doorbell messages, credits, and the link.
-/
namespace Sys2Proof.Machine

/-! ### Events of a module (R365, R371) -/

/-- An unsupported access (R365, R573). -/
def State.unsupported (s : State) (m : Fin 2) (space a : Nat) (rd : Bool) : State :=
  (s.addCtr (idUr m.val) 1).raiseN (72 + m.val) (a % 2 ^ 32) (a / 2 ^ 32 % 8 + 256 * space + 512 * b2n rd)

/-- Does LEN, alignment and range obey R362? -/
def rangeOk (x : Ist) : Bool :=
  let a := istAddr x
  let n := istLen x
  if istSpace x = 0 then decide (4 ≤ n ∧ n ≤ 64 ∧ a + n ≤ 2 ^ 24) && n % 4 == 0 && a % 4 == 0 && decide (a % 64 + n ≤ 64)
  else decide (1 ≤ n ∧ n ≤ 256 ∧ a + n ≤ 2 ^ 35) && decide (a % 256 + n ≤ 256)

/-- The cause of R573 for which a received transaction is malformed (R371), 0 when it is not. -/
def State.malformed (s : State) (x : Ist) : Nat :=
  let t := istType x
  let body := istAddr x
  if t = 3 ∨ 6 ≤ t then 1
  else if 16 ≤ x.h 0 1 ∨ 4 ≤ x.h 1 1 ∨ (t ≠ 5 ∧ 2 ≤ x.h 1 1) ∨ x.h 5 1 ≠ 0 ∨ (t ≠ 2 ∧ istTag x ≠ 0) ∨ (t ≠ 4 ∧ x.h 6 2 ≠ 0) ∨
      ((t = 0 ∨ t = 4 ∨ t = 5) ∧ istLen x ≠ 0) ∨ (t = 0 ∧ body ≠ 0) then 2
  else if (t = 1 ∨ t = 2) ∧ !rangeOk x then 3
  else if t = 4 ∧ (x.h 6 2 ≠ 1 ∨ 8 ≤ x.h 8 4) then 4
  else if t = 2 ∧ (s.ucieOf x.m).tags.contains (istTag x) then 5
  else
    match istVc x with
    | none => 0
    | some vc => if (poolSize (vcPool x.m vc)).getD 0 < s.occupancy (vcPool x.m vc) + istSlots x then 6 else 0

/-- Free n receive slots of a channel (R360). -/
def State.freeSlots (s : State) (m : Fin 2) (vc n : Nat) : State :=
  let u := s.ucieOf m
  let v : Fin 4 := Fin.ofNat 4 vc
  s.setUcie m { u with freed := u.freed.set v (u.freed[v] + n) }

/-- A malformed transaction is discarded, and the receive credits that it consumed, of those that it could, are freed (R371). -/
def State.dropMalformed (s : State) (x : Ist) (cause : Nat) : State :=
  let m := x.m
  let s := match istVc x with
    | none => s
    | some vc =>
      let n := min (istSlots x) (s.freeUnits (vcPool m vc))
      if cause = 6 then s else (s.issue (vcPool m vc) n).freeSlots m vc n
  let s := s.addCtr (idMalformed m.val) 1
  let s := (List.range 4).foldl (fun s i => s.setReg (idErrHdr m.val i) (BitVec.ofNat 32 (x.h (4 * i) 4))) s
  s.raiseN (70 + m.val) (x.h 0 4) cause

/-! ### Completions (R366, R368) -/

/-- The header slot and the data slots of a completion; bytes beyond LEN in the last slot are 0 (R357). -/
def cplBytes (c : Cpl) : List Byte :=
  layout 16 [(0, 1, 3), (2, 2, c.data.length), (4, 1, c.tag), (5, 1, c.status)] ++ padTo (16 * ceilDiv c.data.length 16) c.data

/-- The slot stream that a module has sent (R357): its transactions in order, in slots of 16 bytes. -/
def Ucie.slots (u : Ucie) : List (List Byte) :=
  let b := u.sent.reverse.flatten
  chunks 16 (b.length / 16) b

/-- The protocol bytes of the flits that carry a slot stream (R357): four slots each; a slot that carries no transaction carries a
NOP. -/
def flits (slots : List (List Byte)) : List (List Byte) :=
  (List.range (ceilDiv slots.length 4)).map fun n =>
    (List.range 4).flatMap fun k => slots.getD (4 * n + k) (List.replicate 16 0)

/-- Send waiting completions while VC2 credit lasts. -/
def State.sendCpls (m : Fin 2) : Nat → State → State
  | 0, s => s
  | n + 1, s =>
    let u := s.ucieOf m
    match u.cpls with
    | [] => s
    | c :: rest =>
      let need := 1 + ceilDiv c.data.length 16
      if u.link = .up ∧ u.init ∧ need ≤ u.cr2 then
        let s := s.setUcie m { u with cpls := rest, cr2 := u.cr2 - need, sent := cplBytes c :: u.sent, tags := u.tags.erase c.tag }
        State.sendCpls m n (s.giveBack (8 + m.val) 1)
      else s

/-- Answer a read. -/
def State.complete (s : State) (m : Fin 2) (c : Cpl) : State :=
  let u := s.ucieOf m
  State.sendCpls m (u.cpls.length + 1) (s.setUcie m { u with cpls := u.cpls ++ [c] })

/-! ### The two address spaces -/

/-- A DRAM-window address is in the host area. -/
def inHost (a n : Nat) : Bool := decide (hostBase ≤ a ∧ a + n ≤ hostBase + hostSize)

/-- The effect of a posted write (R362 to R365, R101 to R105): the state, and whether the write is done with. A write into the host area
waits for its class BE tokens (R75, R316, R343). -/
def State.postedWrite (s : State) (m : Fin 2) (space a : Nat) (bytes : List Byte) : State × Bool :=
  if space = 0 then
    let ws := s.ctlWords a bytes.length
    if ws.any fun w => w == .unmapped then (s.unsupported m 0 a false, true)
    else
      let s := if ws.any fun w => match w with | .tray _ off => !trayWritable off | _ => false
        then s.unsupported m 0 a false else s
      ((ws.zip (chunks 4 (bytes.length / 4) bytes)).foldl (fun s e => s.writeCtl e.1 (wordOf e.2)) s, true)
  else if !s.active then (s.unsupported m 1 a false, true)
  else if inHost a bytes.length then
    if s.room .host a bytes.length then (s.store .host a bytes, true) else (s, false)
  else
    match s.poolHit a with
    | .outside => (s.unsupported m 1 a false, true)
    | _ => s.ingest m.val a bytes

/-- A block as a host read finds it (R107, R207, R369): as stored, under what the Fixer holds of it that is no longer being
assembled. -/
def State.forwarded (s : State) (addr : Nat) (d : Delivered) : Delivered :=
  (s.fixers[fixerOf addr].blks.filter fun b => b.addr == addr && !b.filling).foldl (fun d b =>
    .bytes ((List.range 512).map fun k => if b.mask.testBit k then byteAt b.raw k else byteAt d.orZero k)) d

/-- A read of plate data (R107, R208): the bytes, or that they cannot be delivered; none where no plane holds the address. -/
def State.platePeek (s : State) (a n : Nat) : Option (State × Option (List Byte)) :=
  match s.owner? a with
  | none => none
  | some (p, i) =>
    match (s.buf p i).locate a with
    | none => none
    | some (pl, blk, off) =>
      let addr := pl.addr + 512 * blk
      let d := s.forwarded addr (s.readPlane pl blk)
      let s := s.devRead .host addr (pl.ent + 2 * blk)
      match d with
      | .bytes b => some (s, some ((b.drop off).take n))
      | _ => some (s.fxUndelivered (fixerOf addr).val d addr, none)

/-- The answer to a read (R365 to R367, R107). -/
def State.readAnswer (s : State) (x : Ist) : State × Cpl :=
  let a := istAddr x
  let n := istLen x
  let ur := fun (s : State) => (s.unsupported x.m (istSpace x) a true, (⟨istTag x, 1, []⟩ : Cpl))
  if istSpace x = 0 then
    let ws := s.ctlWords a n
    if ws.any fun w => w == .unmapped then ur s
    else
      let r := ws.foldl (fun (acc : State × List Byte) w => (acc.1.readCtlEffect w, acc.2 ++ leBytes 4 (acc.1.readCtl w).toNat)) (s, [])
      (r.1, ⟨istTag x, 0, r.2⟩)
  else if !s.active then ur s
  else if inHost a n then
    (s.access .host a n, if s.clean a n then ⟨istTag x, 0, s.dramRead a n⟩ else ⟨istTag x, 2, List.replicate n 0⟩)
  else
    match s.platePeek a n with
    | none => ur s
    | some (s, some b) => (s, ⟨istTag x, 0, b⟩)
    | some (s, none) => (s, ⟨istTag x, 2, List.replicate n 0⟩)

/-- May a read be answered now? One of the DRAM window waits for its class BE tokens (R316, R343). -/
def State.readReady (s : State) (x : Ist) : Bool :=
  let a := istAddr x
  istSpace x == 0 || !s.active ||
  (if inHost a (istLen x) then s.room .host a (istLen x)
   else
     match s.owner? a with
     | none => true
     | some (p, i) =>
       match (s.buf p i).locate a with
       | none => true
       | some (pl, blk, _) =>
         s.room .host (pl.addr + 512 * blk) (s.slotLen (pl.ent + 2 * blk)) && s.room .host ((pl.ent + 2 * blk) / 64 * 64) 64)

/-! ### Receiving (R369) -/

/-- Free receive slots, if they are still held. -/
def State.freeHeld (s : State) (m : Fin 2) (vc n : Nat) (held : Bool) : State := if held then s.freeSlots m vc n else s

/-- A transaction of the control window, or a doorbell, which CTRL serves: without its clock it waits (R531, R534). -/
def State.ctrlWaits (s : State) (x : Ist) : Bool := (istType x == 4 || istSpace x == 0) && !s.locked 1

/-- A received transaction takes effect; `held` says that its receive slots have not gone with the link. Answers whether it has: one that
finds no slot, credit or token waits (R105, R343). -/
def State.perform (s : State) (x : Ist) (held : Bool) : State × Bool :=
  if s.ctrlWaits x then (s, false)
  else match istType x with
  | 1 =>
    let r := s.postedWrite x.m (istSpace x) (istAddr x) (padTo (istLen x) x.data)
    (if r.2 then r.1.freeHeld x.m 0 (istSlots x) held else r.1, r.2)
  | 2 =>
    if s.readReady x then
      let r := (s.freeHeld x.m 1 1 held).readAnswer x
      (r.1.complete x.m r.2, true)
    else (s, false)
  | 4 => ((s.freeHeld x.m 3 1 held).doorbell (Fin.ofNat 8 (x.h 8 1)) (BitVec.ofNat 32 (x.h 0xC 4)), true)
  | _ => (s, true)

/-- Up to n transactions that wait take effect, in the order in which they were received (R369), until one must wait again. -/
def State.runWaiting (m : Fin 2) : Nat → State → State
  | 0, s => s
  | n + 1, s =>
    match (s.ucieOf m).waiting with
    | [] => s
    | x :: _ =>
      let r := s.perform x.1 x.2
      if r.2 then State.runWaiting m n (r.1.setUcie m { r.1.ucieOf m with waiting := (r.1.ucieOf m).waiting.drop 1 }) else r.1

/-- Can module m receive? A module in the low-power state is first brought out of it (R356). -/
def State.wakeLink (s : State) (m : Fin 2) : State :=
  let u := s.ucieOf m
  if u.link = .lowPower then s.setUcie m { u with link := .up } else s

/-- Receive a transaction: malformed ones are discarded, its receive slots and read tag are taken, and it takes effect in
order (R360, R368, R369, R371). -/
def State.receive (s : State) (x : Ist) : State :=
  let s := s.wakeLink x.m
  let u := s.ucieOf x.m
  if u.link ≠ .up ∨ !s.up (dUa + x.m.val) then s
  else
    let cause := s.malformed x
    if cause ≠ 0 then s.dropMalformed x cause
    else
      let s := match istVc x with | none => s | some vc => s.issue (vcPool x.m vc) (istSlots x)
      let s := if istType x = 2 then
          (s.issue (8 + x.m.val) 1).setUcie x.m { s.ucieOf x.m with tags := istTag x :: (s.ucieOf x.m).tags }
        else s
      let u := s.ucieOf x.m
      let s := s.setUcie x.m { u with waiting := u.waiting ++ [(x, true)] }
      if u.waiting = [] then State.runWaiting x.m 1 s else s

/-- APERTURE_SLOT_TAKEN (R105): module m's oldest waiting transaction goes on, and those behind it. -/
def execApertureSlotTaken (m : Fin 2) (s : State) : Out := .next (State.runWaiting m (s.ucieOf m).waiting.length s)

/-! ### Credits -/

/-- A received read. -/
def istIsRead (x : Ist × Bool) : Bool := istType x.1 == 2

/-- A module is placed in link-down, or its training fails (R372, R373): posted writes received stay, reads are discarded and their tags
freed. -/
def State.linkDown (s : State) (m : Fin 2) : State :=
  let u := s.ucieOf m
  if u.link = .down then s
  else
    let s := s.giveBack (8 + m.val) u.tags.length
    let u := { u with link := .down, init := false, cpls := [], tags := [], cr2 := 0, cr3 := 0
                      freed := u.freed.set 1 (u.freed[1] + (u.waiting.filter fun x => istIsRead x && x.2).length)
                      waiting := u.waiting.filter fun x => !istIsRead x }
    (s.setUcie m u).raiseN (66 + m.val) 0 0

/-- The host advertises too few slots (R361). -/
def advertOk (vc2 vc3 : Nat) : Bool := decide (17 ≤ vc2 ∧ 1 ≤ vc3)

/-- Take a host advertisement (R361). -/
def State.advertise (s : State) (m : Fin 2) (vc2 vc3 : Nat) : State :=
  let s := s.setUcie m { s.ucieOf m with adv2 := vc2, adv3 := vc3, cr2 := vc2, cr3 := vc3, init := true }
  if advertOk vc2 vc3 then s else s.linkDown m

/-- Receive a CRET (R360, R361): the host returns credits, or advertises its total. -/
def State.receiveCret (s : State) (x : Ist) : State :=
  let s := s.wakeLink x.m
  let u := s.ucieOf x.m
  if u.link ≠ .up ∨ !s.up (dUa + x.m.val) then s
  else
    let cause := s.malformed x
    if cause ≠ 0 then s.dropMalformed x cause
    else if 2 ≤ x.h 1 1 then s.advertise x.m (x.h 0xC 2) (x.h 0xE 2)
    else
      State.sendCpls x.m u.cpls.length (s.setUcie x.m { u with cr2 := u.cr2 + x.h 0xC 2, cr3 := u.cr3 + x.h 0xE 2 })

/-- The header slot of a CRET with INIT = 0. -/
def cretBytes (f : Vector Nat 4) : List Byte :=
  layout 16 [(0, 1, 5), (8, 2, f[0]), (0xA, 2, f[1]), (0xC, 2, f[2]), (0xE, 2, f[3])]

/-- UCIE_CREDIT_RETURN (R360, R361): the freed slots go back to the host. -/
def execUcieCreditReturn (m : Fin 2) (s : State) : Out :=
  .next (
    let u := s.ucieOf m
    if u.link = .up && u.freed != Vector.replicate 4 0 then
      let s := s.setUcie m { u with freed := Vector.replicate 4 0, sent := cretBytes u.freed :: u.sent }
      (List.finRange 4).foldl (fun s (v : Fin 4) => s.giveBack (vcPool m v.val) u.freed[v]) s
    else s)

/-! ### The link -/

/-- The pools that a module's link-up restarts (R337). -/
def linkPools (m : Fin 2) : List Nat := [vcPool m 0, vcPool m 1, vcPool m 2, vcPool m 3, 8 + m.val]

/-- The YL9720's own first transaction after link-up (R361). -/
def initCret : List Byte := layout 16 [(0, 1, 5), (1, 1, 2), (8, 2, 2048), (0xA, 2, 256), (0xC, 2, 0), (0xE, 2, 64)]

/-- UB's sideband window (R355): 10 ms in units of 4 ns. -/
def ubWindow : Nat := 2500000

/-- UCIE_LINK_UP (R354, R355, R361, R337, R545): training settles, and the initial credits are exchanged. -/
def execUcieLinkUp (m : Fin 2) (rate : Nat) (repaired reduced : Bool) (vc2 vc3 : Nat) (s : State) : Out :=
  .next (
    let u := s.ucieOf m
    let other := s.ucieOf (1 - m)
    let may := s.up (dUa + m.val) && (u.link == .down || u.link == .train) && s.locked (15 + m.val) &&
      (m == 0 || u.configured || decide (s.now ≤ s.pmu.uaActiveAt + ubWindow))
    let mate := other.link != .up && other.link != .lowPower || other.rate == rate
    if !may then s.pllRetry (Fin.ofNat 17 (15 + m.val))
    else if 2 < rate ∨ reduced ∨ !mate then
      (s.setUcie m { u with link := .down, configured := true }).raiseN (66 + m.val) 0 0
    else
      let s := s.poolsZero (linkPools m)
      let s := s.setUcie m { u with link := .up, rate := rate, configured := true, repaired := repaired, init := false, cr2 := 0, cr3 := 0
                                    freed := Vector.replicate 4 0, waiting := u.waiting.map fun x => (x.1, false), tags := []
                                    cpls := [], sent := initCret :: u.sent, evSeq := 0 }
      let s := s.raiseN (64 + m.val) 0 0
      let s := s.advertise m vc2 vc3
      if s.pmu.boot = .supplies ∧ m = 0 ∧ (s.ucieOf 0).link = .up then
        if s.pmu.fuseFail then { s with pmu := { s.pmu with boot := .failed } }
        else { s with pmu := { s.pmu with boot := .waitFw, window := true } }
      else s)

/-- UCIE_LINK_DOWN (R354, R372, R373). -/
def execUcieLinkDown (m : Fin 2) (s : State) : Out := .next (s.linkDown m)

/-- UCIE_RETRAIN (R372): the adapter has retrained the link. -/
def execUcieRetrain (m : Fin 2) (s : State) : Out :=
  .next (if (s.ucieOf m).link = .up then (s.addCtr (idRetrains m.val) 1).raiseN (68 + m.val) 0 0 else s)

/-- FLIT_CRC_FAIL (R372): each replay is counted. -/
def execFlitCrcFail (m : Fin 2) (s : State) : Out :=
  .next (if (s.ucieOf m).link = .up then s.addCtr (idReplays m.val) 1 else s)

end Sys2Proof.Machine
end

