-- ==== Sys2Proof/Machine/Power.lean ====
section
/-!
DEFINITION. Power domains (R40, R490): which domains are wanted, powering one up and down, what a loss of every domain but AON leaves;
the supplies' failures (R547), the trip (R480 to R482), the clocks (R530 to R535), and the AON resets (R506, R536).
-/
namespace Sys2Proof.Machine

/-! ### What a loss of power leaves -/

/-- The registers of the AON domain: the PMU and NVM groups, the times of the panel rails, which AON drives (log entry 42), and those of
the sideband ports 0 and 1 (R27). -/
def aonReg (id : Nat) : Bool :=
  decide (0x6C00 ≤ id ∧ id < 0x7400) || id == 0x5008 || id == 0x5009 || (id == 0x4C10 || id == 0x4C11 || id == 0x4C30 || id == 0x4C31)

/-- The registers of the UCIe modules. -/
def linkReg (id : Nat) : Bool := decide (0x0800 ≤ id ∧ id < 0x0C00)

/-- The registers of the DATA group: DMC, FAB, PL, EASEL and EC, without the tick generator and the panel rail times. -/
def dataReg (id : Nat) : Bool := decide (0x1000 ≤ id ∧ id < 0x6000) && !decide (0x1C00 ≤ id ∧ id < 0x2000) && !aonReg id

/-- The registers that satisfy p, the others at reset. -/
def RegFile.keep (r : RegFile) (p : Nat → Bool) : RegFile :=
  { held := r.held.filter fun e => p e.1, ctrs := r.ctrs.filter fun e => p e.1, live := [], clock := ⟨0, [], []⟩, snap := []
    hold := r.hold.filter fun e => p e.1, staged := [] }

/-- A port whose link is lost with DATA or with the main supplies: the sideband of ports 0 and 1 lies in AON and goes on (R27), ports 2 and 3
lose their transactions. -/
def Port.lost (p : Port) (q : Fin 4) : Port :=
  let t := { Port.reset with sbSent := p.sbSent, lanes := p.lanes }
  if q.val < 2 then { t with sb := p.sb, sbAt := p.sbAt, sbFree := p.sbFree, pollAt := p.pollAt, round := p.round } else t

/-- The PMU once every domain that may be lost is lost. -/
def Pmu.lost (p : Pmu) : Pmu :=
  { p with mode := (match p.mode with | .latent => .latent | .safelight => .safelight | _ => .standby)
           trans := none, rest := false, powered := 1, clamped := 0xFFFFFE, boot := .supplies, window := false, retained := false
           alarm := false, lock := p.lock &&& 1, tries := Vector.replicate 17 0, started := false }

/-- Every domain but AON has lost power: what AON and the NVM hold stays, together with the queue and the pins (R481, R497, R507,
R535). A page write that waits for the port is lost, the running one goes on (R526). -/
def State.mainLost (s : State) : State :=
  { State.reset with
    pending := s.pending, now := s.now, fresh := s.fresh, regs := s.regs.keep aonReg
    evu := { State.reset.evu with kept := s.evu.kept.filter fun e => srcDomain e.1 == dAon }
    nvm := { s.nvm with jobs := s.nvm.jobs.take 1, results := [] }
    dk := { Dk.reset with svnRaised := s.dk.svnRaised }
    ucie := Vector.ofFn fun (m : Fin 2) => { Ucie.reset with configured := s.ucie[m].configured, sent := s.ucie[m].sent }
    ports := Vector.ofFn fun (q : Fin 4) => (s.ports[q].lost q).dropRetain
    panel := { s.panel with cmds := [], trainCmds := [], releaseDue := false, retain := none, retainDue := [], blFrame := none, blK := none
                            blSent := s.blOut }
    thm := { Thm.reset with diodes := s.thm.diodes, restartSince := s.thm.restartSince }
    pmu := s.pmu.lost }

/-- The pools of the CONTROL group (R537). -/
def ctrlPools : List Nat := [10, 11, 12, 13, 14, 15, 16, 17, 43, 44]

/-- The registers that a reset of CONTROL leaves: those of AON, the modules and DATA, and the Ledger's of the other groups' pools
(R537). -/
def pastCtrl (id : Nat) : Bool :=
  aonReg id || linkReg id || dataReg id || (decide (0x0C00 ≤ id ∧ id < 0x1000) && !ctrlPools.contains ((id - 0x0C10) / 16))

/-- The Darkroom's memory is lost in rest (R494): CTRL and TIME are reset (R537), the modules and the stack go on. -/
def State.ctrlLost (s : State) : State :=
  let t := s.mainLost
  let r := s.regs.keep pastCtrl
  let t := { t with regs := { r with live := s.regs.live, clock := s.regs.clock, snap := s.regs.snap.filter fun e => pastCtrl e.1 }
                    pools := s.pools, ucie := s.ucie, dmc := s.dmc, contact := s.contact
                    pmu := { t.pmu with powered := s.pmu.powered, clamped := s.pmu.clamped, lock := s.pmu.lock } }
  (t.slicesReset ctrlPools).poolsZero ((List.range 17).map (24 + ·))

/-! ### Powering one domain (R490) -/

/-- E549 (R490). -/
def State.domEvent (s : State) (changed : Nat) : State := s.raiseN 549 s.pmu.powered.toNat changed

def poolsOf (d : Nat) : List Nat := (List.range 45).filter fun k => (poolHome k).1 == d

/-- The PLLs of a domain that lock when it powers up (R531). -/
def domPlls (d : Nat) : List Nat :=
  if d = dTime then [14] else if d = dUa then [15] else if d = dUb then [16] else if d = dFab then [3]
  else if d = dPl then [10, 11, 12, 13] else if d < dPl then [] else if d < 12 then [d - 2] else [4]

/-- THM starts with every node and both ambient estimates at the base diode's reading (R467); a reading that a faulted diode does not
give is a free value. -/
def State.thmStart (s : State) : State :=
  let r : Int × State := match s.thm.diodes[0] with
    | .valid t => (t, s)
    | _ => let f := s.free; (signed 16 (fld f.1 15 0), f.2)
  { r.2 with thm := { r.2.thm with nodes := Vector.replicate 24 r.1, amb := Vector.replicate 2 r.1 } }

/-- What the PMU has kept is raised once CTRL is up (R419). -/
def State.raiseKept (s : State) : State :=
  let l := s.evu.kept
  l.foldl (fun s e => s.raise e.1 e.2.1 e.2.2) { s with evu := { s.evu with kept := [] } }

/-- The registers of a domain below AON, CTRL and TIME by their IDs (R406); those of the panel side that AON holds are none of PL's. -/
def domReg (d id : Nat) : Bool :=
  let span (lo hi : Nat) : Bool := decide (lo ≤ id ∧ id < hi)
  if d = dTime then span 0x1C00 0x2000 || span 0x6000 0x6800
  else if d = dUa then span 0x0800 0x0820
  else if d = dUb then span 0x0820 0x0840
  else if d = dDmc then span 0x1000 0x1800
  else if d = dFab then span 0x2000 0x2100 || span 0x2800 0x2900 || span 0x3000 0x3100 || span 0x5C00 0x6000
  else if d = dPl then (span 0x4C00 0x4C80 || span 0x5000 0x5400) && !aonReg id
  else if d < 8 then false
  else if d < 12 then
    let q := d - 8
    span (0x3C00 + 32 * q) (0x3C20 + 32 * q) || span (0x4400 + 16 * q) (0x4410 + 16 * q) || span (0x4800 + 80 * q) (0x4850 + 80 * q) || id == 0x4940 + q
  else span (0x3400 + 8 * (d - 12)) (0x3408 + 8 * (d - 12))

/-- A register after its domain's power-up reset: the firmware writes the settings, which it holds in CTRL, again; every other field is at its
Reset value (log entry 41). -/
def poweredWord (id : Nat) (w : Word) : Word :=
  let rw := match findReg id with | none => 0 | some f => f.d.accMask fun a => a = .rw
  (w &&& rw) ||| (resetWord id &&& ~~~ rw)

/-- The power-up reset of the registers that satisfy p (R536): what is not a setting, the counters and the hold registers. -/
def RegFile.powerUp (r : RegFile) (p : Nat → Bool) : RegFile :=
  { r with
    held := r.held.filterMap fun e =>
      if !p e.1 then some e else if poweredWord e.1 e.2 = resetWord e.1 then none else some (e.1, poweredWord e.1 e.2)
    ctrs := r.ctrs.filter fun e => !p e.1, live := r.live.filter fun e => !p e.1, hold := r.hold.filter fun e => !p e.1 }

/-- What powering up domain d restores in it (R127, R142, R205, R328, R355, R428, R467): its units start anew. -/
def State.domInit (s : State) (d : Nat) (fails : BitVec 64) : State :=
  let s := { s with regs := s.regs.powerUp (domReg d) }
  if d = dCtrl then ({ s with evu := { s.evu with queue := [] } }).thmStart.raiseKept
  else if d = dTime then { s with time := TimeUnit.reset, tick := TickGen.reset }
  else if d = dUa then
    (s.setUcie 0 { s.ucieOf 0 with link := .train }).setPmu { s.pmu with uaActiveAt := s.now }
  else if d = dUb then s.setUcie 1 { s.ucieOf 1 with link := .train }
  else if d = dFab then ({ s.leaveRefresh fails with fixers := Vector.replicate 8 Fixer.reset, contact := Contact.reset }).rebuildFlags
  else if d < 8 then s
  else if d < 12 then { s with easels := s.easels.set (Fin.ofNat 4 (d - 8)) Easel.reset }
  else
    let c : Fin 12 := Fin.ofNat 12 (d - 12)
    let s := if s.rayMap.loaded
      then { s with rayMap := { s.rayMap with lensFilled := s.rayMap.lensFilled ||| BitVec.ofNat 12 (2 ^ c.val) } } else s
    s.rfcFill c

/-- After a training that failed the device is in FAILED, as in step 8 of R545 (R326, log entry 22). -/
def State.trainEnd (s : State) : State :=
  if s.dmc.state = .failed ∧ s.pmu.boot ≠ .failed then
    { s.setPmu { s.pmu with boot := .failed, bootErr := 0x20, trans := none } with dk := { s.dk with running := false } }
  else s

/-- Domain d is switched on, reset and unclamped. -/
def State.domainOn (s : State) (d : Nat) (fails : BitVec 64) : State :=
  let b := domBit d
  let s := s.setPmu { s.pmu with powered := s.pmu.powered ||| b, clamped := s.pmu.clamped &&& ~~~ b }
  let s := s.slicesReset (poolsOf d)
  let s := if s.pmu.xtal then (domPlls d).foldl (fun s p => s.setLock p true) s else s
  ((s.domInit d fails).domEvent (2 ^ d)).trainEnd

/-- The transactions of a sideband bus that loses power end. -/
def State.sbDrop (s : State) (q : Fin 4) : State :=
  let l := (s.port q).sb
  let s := s.setPort q { s.port q with sb := [] }
  l.foldl (fun s t => match t.use with
    | .cfgWrite c => s.failFree c
    | .cfgRead c => s.failFree c
    | _ => s) s

/-- The tables that the Easels hold are lost with them (R221, R226, R496). -/
def State.tablesLose (s : State) : State := { s with corr := { CorrSt.reset with base := s.corr.base } }

/-- What domain d loses with its power. -/
def State.domLose (s : State) (d : Nat) : State :=
  if d = dUa then s.setUcie 0 { s.ucieOf 0 with link := .down, init := false, cpls := [], tags := [] }
  else if d = dUb then s.setUcie 1 { s.ucieOf 1 with link := .down, init := false, cpls := [], tags := [] }
  else if d = dTime then { s with time := TimeUnit.reset, tick := TickGen.reset }
  else if d = dFab then { s with fixers := Vector.replicate 8 Fixer.reset, contact := Contact.reset, rayMap := { s.rayMap with bounds := [] } }
  else if d = dPl then
    let s := (List.finRange 4).foldl (fun s (q : Fin 4) => s.setPort q { (s.port q).laneStop s.now with st := .down, trainAt := none, lock := 0 }) s
    (s.sbDrop 2).sbDrop 3
  else if d < 8 then s
  else if d < 12 then
    let q : Fin 4 := Fin.ofNat 4 (d - 8)
    (if q = 0 then s.tablesLose else s).setEasel q Easel.reset |>.reclass q .rt
  else
    let b := BitVec.ofNat 12 (2 ^ (d - 12))
    { s with rayMap := { s.rayMap with lensFilled := s.rayMap.lensFilled &&& ~~~ b } }.dropCluster (Fin.ofNat 12 (d - 12))

/-- Does some domain of EC0 to EC11 (from 12) or of EASEL and EC (from 8) have power? -/
def State.anyFrom (s : State) (d : Nat) : Bool := s.pmu.powered.toNat / 2 ^ d != 0

/-- Domain d is clamped and switched off, and its pools go with it (R337); the last EASEL or EC domain takes VDD_CORE with it (R546). -/
def State.domainOff (s : State) (d : Nat) : State :=
  let b := domBit d
  let s := s.setPmu { s.pmu with powered := s.pmu.powered &&& ~~~ b, clamped := s.pmu.clamped ||| b }
  let s := (s.domLose d).poolsZero (poolsOf d)
  let s := if 12 ≤ d ∧ s.anyFrom 12 then s else (domPlls d).foldl (fun s p => s.setLock p false) s
  let s := if 8 ≤ d ∧ !s.anyFrom 8 then s.dropRail 5 else s
  s.domEvent (2 ^ d)

/-- Every domain but AON goes down at once. -/
def State.allDown (s : State) : State :=
  let old := s.pmu.powered
  if old = 1 then s.mainLost else s.mainLost.domEvent ((old ^^^ 1#24)).toNat

/-! ### Which domains are wanted -/

/-- Every response has been written, as far as its ring lets it (R384). -/
def State.flushed (s : State) : Bool :=
  s.trays.toList.all fun y => y.held == [] || decide (256 ≤ idxSub y.respTail y.respHead)

/-- AON, CTRL, TIME, UA and UB: what start-up powers before the firmware runs (R545), and what a move into SAFELIGHT or LATENT keeps
until its response is out (R507). -/
def State.bareMask (s : State) : BitVec 24 := s.modeMask .standby &&& ~~~ domBit dDmc

/-- The domains that are wanted while the firmware runs. -/
def State.wantRun (s : State) : BitVec 24 :=
  match s.pmu.trans with
  | none =>
    match s.pmu.mode with
    | .latent => if s.flushed then 1 else s.bareMask
    | .safelight => if s.flushed then 1 else s.bareMask
    | m => s.modeMask m
  | some t =>
    if activeMode t.target then s.modeMask s.pmu.mode ||| s.modeMask t.target
    else if !s.stopped t then s.modeMask s.pmu.mode
    else match t.target with
      | .safelight => s.bareMask
      | .latent => if s.panel.st = .off then s.bareMask else s.modeMask s.pmu.mode
      | _ => s.modeMask .standby

/-- The domains that are wanted. A trip takes them down together (R481). -/
def State.wanted (s : State) : BitVec 24 :=
  if s.pmu.tripped then s.pmu.powered
  else if s.pmu.latentHeld || !s.pmu.vaux then 1
  else if s.pmu.fall ≠ .none then (if s.panel.st = .off then 1 else s.pmu.powered)
  else if s.dk.running then s.wantRun
  else if s.pmu.boot = .aonInit ∨ s.pmu.mode = .latent ∨ (s.pmu.mode = .safelight ∧ s.pmu.sleep ≠ .awake) then 1
  else if s.suppliesGood then s.bareMask ||| (s.pmu.powered &&& domBit dDmc)
  else s.pmu.powered

/-! ### Rows of R490 -/

/-- On the way out of STANDBY every domain has come up (R496): the kept regions are checked, the on-die copies are reloaded, and the panel comes
up or its ports train. -/
def State.leftStandby (s : State) : State :=
  match s.pmu.trans with
  | none => s
  | some t =>
    if s.pmu.mode = .standby && activeMode t.target && !t.second && s.wanted &&& ~~~ s.pmu.powered == 0 then
      let s := s.setPmu { s.pmu with trans := some { t with second := true } }
      let bad := !s.keptOk
      let s := s.keptScrub
      let s := if bad then { s with cal := { s.cal with profile := .invalid } } else s
      if bad && t.target != .service then s.transFail 0x0C05
      else
        let s := s.keptReload
        match s.panel.st with
        | .on => s.trainAll
        | .off => if t.target = .service then s else if s.crackBad 0 ∨ s.crackBad 1 then s.transFailFree else s.panelBegin
        | _ => s
    else s

/-- The clock that a domain needs before it powers up runs (R545 step 5). -/
def State.domClock (s : State) (d : Nat) : Bool :=
  if d = dCtrl then s.locked 1 else if d = dTime then s.locked 2 else if d = dDmc then s.locked 5 else true

/-- DOMAIN_POWER_UP (R490, R546): in ascending order; the first EASEL or EC domain waits for VDD_CORE. -/
def execDomainPowerUp (d : Fin 24) (trainFail : BitVec 64) (s : State) : Out :=
  .next (
    let w := s.wanted
    let turn := w.getLsbD d.val && !s.pmu.powered.getLsbD d.val && (List.range d.val).all fun e => !w.getLsbD e || s.pmu.powered.getLsbD e
    if turn && s.suppliesGood && s.domClock d.val then
      if d.val < 8 then (s.domainOn d.val trainFail).leftStandby
      else
        let s := if s.pmu.pwrEn.getLsbD 5 then s else s.enableRail 5
        if s.pmu.pwrPg.getLsbD 5 then (s.domainOn d.val trainFail).leftStandby else s
    else s)

/-- FAB holds no unit of another group's pool (R342): no block in a Fixer, no running Contact job, no YTC_LOAD. -/
def State.fabIdle (s : State) : Bool :=
  (s.fixers.toList.all fun f => f.blks == []) && !s.ctBusy && s.dk.started.all fun c => c.opcode != 0x0304

/-- Domain d is drained (R342). A fall of every domain does not wait for it. -/
def State.drained (s : State) (d : Nat) : Bool :=
  s.pmu.fall != .none ||
  (if d = dCtrl then s.nvm.jobs == []
   else if d = dFab then s.fabIdle
   else if 12 ≤ d then s.easels.toList.all fun e => e.strips.all fun x => x.engine.all fun n => n / 8 != d - 12
   else if 8 ≤ d then (s.easel (Fin.ofNat 4 (d - 8))).st != .running || s.quiet
   else true)

/-- The incomplete assemblies of every buffer are flushed, so that FAB drains (log entry 43). -/
def State.flushAll (s : State) : State :=
  (List.finRange 8).foldl (fun s (p : Fin 8) => (List.finRange 2).foldl (fun s (i : Fin 2) => s.flushBuf p i 2) s) s

/-- What follows once CTRL has lost power: VAUX holds a device in LATENT (R507), and the supplies go down, or the device starts again
(R501, R507, R535, R547). -/
def State.afterCtrl (s : State) : State :=
  let s := s.setPmu { s.pmu with latentHeld := s.pmu.latentHeld || s.pmu.mode == .latent }
  match s.pmu.fall with
  | .clock => if s.pmu.xtal then s.mainStart else s
  | _ => State.lowerRails 7 s

/-- DOMAIN_POWER_DOWN (R342, R490): in descending order. FAB first cancels Contact (R308), and the stack enters self-refresh behind it
(R328). -/
def execDomainPowerDown (d : Fin 24) (s : State) : Out :=
  .next (
    let w := s.wanted
    let up := s.pmu.powered
    let turn := d.val != 0 && up.getLsbD d.val && !w.getLsbD d.val && (List.range 24).all fun e => !decide (d.val < e) || !up.getLsbD e || w.getLsbD e
    if !turn then s
    else if d.val = dFab ∧ s.fixers.toList.any (fun f => f.blks.any FixBlk.filling) ∧ s.pmu.fall = .none then s.flushAll
    else if !s.drained d.val then s
    else if d.val = dFab then ((s.ctCancel.domainOff dFab).selfRefresh)
    else if d.val = dCtrl then s.allDown.afterCtrl
    else s.domainOff d.val)

/-- UB_CONFIG_WINDOW_EXPIRE (R355): a UB that has heard the host's first training message in its window is configured, whatever its
training settles on; one that has not stays down. -/
def execUbConfigWindowExpire (heard : Bool) (s : State) : Out :=
  .next (if s.up dUa && s.up dUb && !(s.ucieOf 1).configured && decide (s.pmu.uaActiveAt + ubWindow ≤ s.now) then
    if heard then s.setUcie 1 { s.ucieOf 1 with configured := true }
    else (s.setPmu { s.pmu with ubOff := true }).domainOff dUb
  else s)

/-! ### Supply failure (R547) -/

/-- The record of a supply failure in PMU.BOOT; FAILS counts the failed attempts of step 4, so not a power good that is lost behind step 9
or in a trip. -/
def State.bootRecord (s : State) (i : Nat) (lost : Bool) : State :=
  let n := if s.dk.running || s.pmu.tripped then s.rf idPmuBoot 1 0 else min 3 (s.rf idPmuBoot 1 0 + 1)
  (s.setReg idPmuBoot (mkWord [(31, 31, 1), (9, 8, if lost then 2 else 1), (7, 4, i), (1, 0, n)])).setPmu { s.pmu with failDue := true }

/-- SUPPLY_FAIL (R547): a power good is late by 10 ms, or, once it has risen, has been low for 4 AON_CLK cycles. -/
def execSupplyFail (i : Fin 6) (s : State) : Out :=
  .next (
    let lost := s.pmu.pwrRose.getLsbD i.val
    let low := s.pmu.pwrEn.getLsbD i.val && !s.pmu.pwrPg.getLsbD i.val
    if low && s.pmu.lowering.isNone && s.pmu.fall == .none &&
        decide (s.pmu.pwrEnAt[i] + (if lost then 40 else 2500000) ≤ s.now) then
      let s := s.bootRecord i.val lost
      let s := s.setPmu { s.pmu with fall := .supply }
      if s.dk.running then s.panelSafe .pgLost else State.lowerRails 7 s.allDown
    else s)

/-! ### Trip (R480 to R482) -/

/-- The domains go down together at the end of the trip's DISCHARGE step, and every supply enable but VDDA's (R481). -/
def State.tripDown (s : State) : State :=
  let s := [1, 2, 3, 4, 5].foldl (fun (s : State) i => if s.pmu.pwrEn.getLsbD i then s.dropRail i else s) s.allDown
  s.setPmu { s.pmu with lowering := none, fall := .none, retryAt := none }

/-- The node that a cause of a trip is recorded under: a diode's number is not given, and is free (R480, R526). -/
def State.tripNode (s : State) (cause : Nat) : Nat × State :=
  if cause < 24 then (cause, s) else let f := s.free; (fld f.1 4 0, f.2)

/-- A trip that arrives while one is in progress only adds its node to the record, once (R481). -/
def State.tripAdd (s : State) (cause : Nat) : State :=
  if s.pmu.tripSeen.contains cause then s
  else
    let r := s.tripNode cause
    r.2.setPmu { r.2.pmu with tripSeen := cause :: r.2.pmu.tripSeen
                              tripMore := if (r.2.pmu.tripDetail.any fun d => d.1 == r.1) || r.2.pmu.tripMore.contains r.1 then r.2.pmu.tripMore
                                          else r.1 :: r.2.pmu.tripMore }

/-- The trip begins at the comparator's edge with its first cause (R481). -/
def State.tripBegin (s : State) (cause : Nat) (value : Int) : State :=
  let r := s.tripNode cause
  let s := r.2
  let s := { s with expo := { s.expo with sched := none }, evu := { s.evu with
    kept := s.evu.kept ++ [(547, BitVec.ofNat 32 r.1, BitVec.ofNat 32 (unsigned 16 value))] } }
  let s := s.setPmu { s.pmu with tripped := true, stuckOff := s.thm.diodes.toList.any (fun d => match d with | .valid _ => false | _ => true)
                                 tripPaged := false, tripSeen := [cause], tripMore := [], trans := none
                                 tripDetail := some (r.1, value, modeCode s.pmu.mode, s.expo.tick % 2 ^ 32) }
  { s with thm := { s.thm with restartSince := none }, nvm := { s.nvm with jobs := s.nvm.jobs.take 1, results := [] } }

/-- THERMAL_TRIP (R480, R481). -/
def execThermalTrip (s : State) : Out :=
  .next (
    match s.tripCauses with
    | [] => s
    | (cause, value) :: more =>
      if !s.vddaUp then s
      else if s.pmu.tripped then s.tripCauses.foldl (fun s e => s.tripAdd e.1) s
      else
        let s := (more.foldl (fun s e => s.tripAdd e.1) (s.tripBegin cause value)).panelSafe .trip
        if s.panel.step = .discharge then s else s.tripDown)

/-- PANEL_SAFE_DISCHARGE_END (R283, R481): the gate step ends and the rails go down; in a trip every domain goes down with it. -/
def execPanelSafeDischargeEnd (s : State) : Out :=
  .next (if s.panel.step == .discharge && decide (s.panel.stepAt + s.discharge ≤ s.now) then
    let s := s.railStart
    if s.pmu.tripped then s.tripDown else s
  else s)

/-- The restart after a trip (R482): both diodes valid and at most 85 degrees for 10 s, and neither open nor shorted since the trip. -/
def State.tripRestart (s : State) : State :=
  match s.thm.restartSince with
  | none => s
  | some t =>
    if s.pmu.tripped && !s.pmu.stuckOff && s.pmu.powered == 1 && decide (t + 2500000000 ≤ s.now) then (s.setRf idWakeStatus 7 4 5).mainStart else s

/-- THERMAL_RESTART (R482). -/
def execThermalRestart (s : State) : Out := .next s.tripRestart

/-! ### Clocks (R530 to R535) -/

/-- The domains that a PLL serves; XTAL serves AON. -/
def pllDomains (p : Nat) : List Nat :=
  if p = 0 then [0] else if p = 1 then [dCtrl] else if p = 2 ∨ p = 14 then [dTime] else if p = 3 then [dFab]
  else if p = 4 then (List.range 12).map fun c => dEc c else if p = 5 then [dDmc] else if p < 10 then [dEasel (p - 6)]
  else if p < 14 then [dPl] else if p = 15 then [dUa] else [dUb]

/-- A PLL is on: a domain that it serves is powered; those of CTRL, TIME and DMC from step 5 of start-up on (R545). -/
def State.pllOn (s : State) (p : Nat) : Bool :=
  ((pllDomains p).any fun d => s.pmu.powered.getLsbD d) || ((p == 1 || p == 2 || p == 5) && s.suppliesGood)

/-- The relock attempts that a PLL has, and the limit of each in units of 4 ns; those of a link end with the link's own training, and 0 stands
for their limit (R533). -/
def linkPll (p : Nat) : Bool := decide (10 ≤ p)
def relockTries (p : Nat) : Nat := if p = 5 then 1 else 3
def relockLimit (p : Nat) : Nat := if linkPll p then 0 else if p = 5 then 7500 else 25000

/-- A port that is UP loses its link. -/
def State.portLose (s : State) (q : Fin 4) : State := if (s.port q).st = .up then s.trainPort q .retrain else s

/-- A clock is lost (R533, R534). -/
def State.pllLose (s : State) (p : Nat) : State :=
  if !s.locked p then s
  else
    let s := s.setLock p false
    let s := s.setReg idClkLoss (s.reg idClkLoss ||| BitVec.ofNat 32 (2 ^ p))
    let s := if h : p < 17 then s.setPmu { s.pmu with lossAt := s.pmu.lossAt.set p s.now, tries := s.pmu.tries.set p 0 } else s
    if p = 4 then { s with loads := { s.loads with engHeld := true } }
    else if 6 ≤ p ∧ p < 10 then (s.rasterStop (Fin.ofNat 4 (p - 6))).portLose (Fin.ofNat 4 (p - 6))
    else if 10 ≤ p ∧ p < 14 then s.portLose (Fin.ofNat 4 (p - 10))
    else if p = 14 then (s.setPtp { s.time.ptp with link := false }).ptpUnlock
    else if p = 15 then s.linkDown 0
    else if p = 16 then s.linkDown 1
    else s

/-- PLL_LOSS_OF_LOCK (R533, R534); without XTAL every PLL fed from it counts as lost. -/
def execPllLossOfLock (p : Fin 17) (s : State) : Out :=
  .next (
    if p = 0 then
      if s.pmu.xtal then
        let s := s.setPmu { s.pmu with xtal := false }
        (List.range 15).foldl (fun s p => s.pllLose p) s
      else s
    else s.pllLose p.val)

/-- An attempt to relock PLL p is running (R533). -/
def State.relocking (s : State) (p : Fin 17) : Bool :=
  p != 0 && !s.locked p.val && s.pllOn p.val && decide (s.pmu.tries[p] < relockTries p.val) &&
    (linkPll p.val || decide (s.now ≤ s.pmu.lossAt[p] + (s.pmu.tries[p] + 1) * relockLimit p.val))

/-- PLL_RELOCK (R533, R534). What waited for CTRL_CLK reaches the event unit; PLL_DMC's is followed by the short training of R326, refreshes
resume before it. -/
def execPllRelock (p : Fin 17) (trainFail : BitVec 64) (s : State) : Out :=
  .next (if s.relocking p && (s.pmu.xtal || decide (15 ≤ p.val)) && s.pmu.fall == .none then
    let s := s.setLock p.val true
    let s := (s.setPmu { s.pmu with tries := s.pmu.tries.set p 0 }).addCtr idRelocks 1
    if p = 1 ∧ s.up dCtrl then s.raiseKept
    else if p = 5 ∧ s.dmc.state = .run then (s.trained trainFail).trainEnd
    else if p = 2 ∧ s.run ∧ s.tick.last.isSome then ({ s with tick := { s.tick with stretched := true } }).raiseN 513 0 0 else s
  else s)

/-- A loss is unrecoverable (R535): the panel rails go down, and the domains after them; with every domain down already the device starts
again once XTAL is present. -/
def State.clockFall (s : State) : State :=
  if s.pmu.fall ≠ .none ∨ s.pmu.tripped then s
  else
    let s := s.setPmu { s.pmu with fall := .clock, trans := none }
    if s.panel.st = .off then (if s.pmu.powered = 1 ∧ s.pmu.xtal then s.mainStart else s)
    else
      let falling := match s.panel.step with | .lower _ => true | .waitPg _ => true | _ => false
      let s := s.setPanel { s.panel with st := .safeSeq, latent := true, seqCause := 0 }
      if falling then s else s.railStart

/-- RELOCK_TIMEOUT (R533, R535): an attempt has failed; at most 3, for PLL_DMC one. When all have failed a link stays down until its next
training. -/
def execRelockTimeout (p : Fin 17) (s : State) : Out :=
  .next (
    let n := s.pmu.tries[p]
    if p != 0 && !s.locked p.val && s.pllOn p.val && decide (n < relockTries p.val ∧ s.pmu.lossAt[p] + (n + 1) * relockLimit p.val ≤ s.now) then
      let s := s.setPmu { s.pmu with tries := s.pmu.tries.set p (n + 1) }
      if n + 1 < relockTries p.val then s
      else if !linkPll p.val then s.clockFall
      else if p.val < 14 then s.portDown (Fin.ofNat 4 (p.val - 10))
      else s
    else s)

/-- XTAL_PRESENT (R533, R535): the crystal is back; an unrecoverable loss restarts, and start-up goes on. -/
def execXtalPresent (s : State) : Out :=
  .next (if s.pmu.xtal then s
  else
    let s := (s.setPmu { s.pmu with xtal := true }).setLock 0 true
    if s.pmu.fall = .clock then (if s.pmu.powered = 1 then s.mainStart else s)
    else if s.pmu.boot = .supplies ∧ s.suppliesGood then s.startPlls
    else s)

/-! ### AON resets (R506, R536, R545) -/

/-- A cold reset: everything returns to reset but the NVM, the blown fuses, the VAUX latches and the pins. A page write in progress is cut
off (R517). -/
def State.coldReset (s : State) : State :=
  let s := s.nvmCut
  { State.reset with
    pending := s.pending, now := s.now, fresh := s.fresh
    regs := { RegFile.reset with held := s.regs.held.filter fun e => e.1 == idBor || e.1 == idPmuBoot }
    nvm := { s.nvm with jobs := [], since := 0, lastPage := 0, lastWriter := 0, tornSeen := [] }
    dk := { Dk.reset with svnRaised := s.dk.svnRaised }
    panel := { Panel.reset with pg := s.panel.pg }
    thm := { Thm.reset with diodes := s.thm.diodes }
    pmu := { Pmu.reset with pwrPg := s.pmu.pwrPg, xtal := s.pmu.xtal, lock := s.pmu.lock &&& 1, borDue := s.pmu.borDue
                            failDue := s.pmu.failDue } }

/-- COLD_RESET (R536): VAUX has risen, or VDD_AON has come back after a brown-out. -/
def execColdReset (s : State) : Out := .next s.coldReset

/-- AON has no power. -/
def State.aonOff (s : State) : State := s.setPmu { s.pmu with powered := 0, clamped := 0xFFFFFF }

/-- BROWNOUT (R506). -/
def execBrownout (s : State) : Out :=
  .next (if s.pmu.powered.getLsbD 0 then
    let m := modeCode s.pmu.mode
    let t := s.coldReset
    (t.setReg idBor (BitVec.ofNat 32 (2 ^ 31 + m))).setPmu { t.aonOff.pmu with borDue := true }
  else s)

/-- VAUX_LOSS (R506, R547). -/
def execVauxLoss (s : State) : Out :=
  .next (
    let t := s.coldReset
    let t := { t with regs := RegFile.reset }
    t.setPmu { t.aonOff.pmu with vaux := false, borDue := false, failDue := false })

/-- AON_POWER_GOOD (R545 steps 1 to 4): after 3 failed reads of the fuses the device ends in FAILED instead of step 6. -/
def execAonPowerGood (failedReads : Nat) (s : State) : Out :=
  .next (if s.pmu.boot == .aonInit && s.pmu.powered.getLsbD 0 then
    let bad := decide (3 ≤ failedReads)
    (s.setPmu { s.pmu with fuseFail := bad, bootErr := if bad then 1 else 0 }).mainStart
  else s)

end Sys2Proof.Machine
end

