-- ==== Sys2Proof/Machine/Moves.lean ====
section
/-!
DEFINITION. Moves between modes (R485 to R489, R493 to R510): MODE_GET and MODE_SET, the completion of a transition, sleep and wake, and
the commands POWER_READ, SERVICE_PATTERN and SERVICE_CAPTURE.
-/
namespace Sys2Proof.Machine

/-! ### MODE_GET and MODE_SET (R485, R489) -/

/-- The mode of a code of HOST.MODE. -/
def modeOf (code : Nat) : Option Mode :=
  match code with
  | 1 => some .latent
  | 2 => some .safelight
  | 3 => some .standby
  | 4 => some .flat
  | 5 => some .field
  | 6 => some .service
  | _ => none

/-- MODE_GET (R489). -/
def execModeGet (c : Cmd) (s : State) : Out :=
  .next (if s.mayStart c 0x0003 then
    s.done c (leBytes 1 (modeCode s.pmu.mode) ++ leBytes 1 (modeCode s.targetMode)
      ++ leBytes 1 (b2n s.modeBusy + 2 * b2n s.pmu.rest) ++ leBytes 1 (s.rf idWakeStatus 7 0) ++ leBytes 1 (s.rf idBor 7 0))
  else s)

/-- The moves of R485. -/
def moveOk (a b : Mode) (rest : Bool) : Bool :=
  match a, b with
  | .standby, .standby => rest
  | .standby, m => activeMode m
  | .flat, .flat => false
  | .field, .field => false
  | .service, .service => false
  | .latent, _ => false
  | .safelight, _ => false
  | .service, m => m == .standby || activeMode m
  | _, _ => true

/-- rowcycles of R500. -/
def rowCycles (w : Nat) : Nat := 8 * (14 + segBytes w) + 8

/-- The image's address and its length in bytes (R499). -/
def State.safeImage (s : State) : Nat × Nat :=
  ((s.reg idSafeImgLo).toNat + s.rf idSafeImgHi 2 0 * 2 ^ 32, s.rf idSafeSize 31 16 * s.safeRow (32 * s.qw))

/-- The window checks of R498, R500 and R501: the reason of the first that fails, 0 when all pass. -/
def State.safeReason (s : State) : Nat :=
  let x0 := s.rf idSafePos 15 0
  let y0 := s.rf idSafePos 31 16
  let w := s.rf idSafeSize 15 0
  let h := s.rf idSafeSize 31 16
  let row (b : Nat) : Nat := let n := (s.safeSeg b (32 * s.qw)).2; if n = 0 then 0 else rowCycles n
  if 64 * s.qw < x0 + w ∨ s.qh < y0 + h then 0x0C03
  else if 25000000 < h * max (row 0) (row 1) * s.rf idSafeCtrl 4 0 then 0x0C04
  else if !hostRange s.safeImage.1 s.safeImage.2 then 0x010A
  else 0

/-- The reason for which a MODE_SET is refused, 0 when it is accepted (R464, R485). -/
def State.moveReason (s : State) (m : Mode) (rest : Bool) : Nat :=
  if !moveOk s.pmu.mode m rest then 0x0C01
  else if (m == .flat || m == .field) && s.cal.profile != .valid then 0x040A
  else if s.active && activeMode m then (let r := s.modeAdmits m; if r = 0x0200 then 0 else r)
  else if (m == .safelight || m == .latent) && s.panel.st != .on then 0x0C06
  else if m = .safelight then s.safeReason
  else 0

/-- What an accepted MODE_SET saves in the NVM on the way into STANDBY or LATENT (R450, R456, R523, R525). -/
def State.saveAll (s : State) (m : Mode) : State :=
  let s := (List.finRange 4).foldl (fun s (q : Fin 4) => if s.easelRuns q then s.readHist q else s) s
  let s := (s.wearWrite.saveCounts).ctrWrite 1 (s.cntVal 1) s.recTime []
  s.writeLastMode (modeCode m)

/-- The image is copied into the AON SRAM (R499, R501). -/
def State.copyImage (s : State) : State :=
  let im := s.safeImage
  let s := s.access .firmware im.1 im.2
  s.setPmu { s.pmu with aonSram := memWrite [] 0 (s.dramRead im.1 im.2), safeCut := 32 * s.qw }

/-- What the start of a move does before its tick (R487, R501, R507). -/
def State.moveStart (s : State) (m : Mode) : State :=
  let s := if s.active && !activeMode m then s.endPending 0x020E else s
  let s := if m = .standby ∨ m = .latent then s.saveAll m else s
  if m = .safelight ∨ m = .latent then
    let s := s.ctStop.tickWaitFail
    let s := { s with regs := { s.regs with staged := [] } }
    if m = .safelight then s.copyImage else s
  else s

/-- MODE_SET (R485); the image of SAFELIGHT is read once its tokens are free (R316). -/
def execModeSet (c : Cmd) (s : State) : Out :=
  .next (if s.mayStart c 0x0004 then
    let v := c.arg 0 1
    let rest := v.testBit 3
    if s.pmu.trans.isSome then s.refuse c 0x0C02
    else
      match (if v < 16 then modeOf (v % 8) else none) with
      | none => s.refuse c 0x0C01
      | some m =>
        if rest && m != .standby then s.refuse c 0x0C01
        else
          let r := s.moveReason m rest
          if r ≠ 0 then s.refuse c r
          else if m == .safelight && !s.room .firmware s.safeImage.1 s.safeImage.2 then s
          else
            let s := s.startCmd c
            (s.setPmu { s.pmu with trans := some ⟨some c, m, rest, s.now, false⟩ }).moveStart m
  else s)

/-! ### The completion of a transition (R486, R488) -/

/-- Is D = 2 in a mode under the stop in force (R78, R478)? -/
def State.d2In (s : State) (m : Mode) : Bool := s.expo.stop == 2 && (m == .field || m == .service)

/-- The tick that arrives next is a frame tick (R43), and a raster tick where D is 2 before or after the move to mode m (R79, R475; log
entry 116). -/
def State.frameNext (s : State) (m : Mode) : Bool :=
  match s.tick.toArrive with
  | [] => false
  | e :: _ => e.idx % 2 ^ s.rf idSteer 1 0 == 0 && (e.idx % 2 == 0 || !(s.expo.d2 || s.d2In m))

/-- A module that is UP is held in the low-power state, or taken out of it (R356). -/
def State.linkPower (s : State) (low : Bool) : State :=
  (List.finRange 2).foldl (fun s (m : Fin 2) =>
    let u := s.ucieOf m
    match u.link with
    | .up => if low then s.setUcie m { u with link := .lowPower } else s
    | .lowPower => if low then s else s.setUcie m { u with link := .up }
    | _ => s) s

/-- What entry into FLAT, FIELD or SERVICE does (R174, R225, R229, R235, R452, R486); the cull inputs were `key`. -/
def State.enterActive (s : State) (key : CullKey) : State :=
  let pfs := s.pmu.mode == .field || s.pmu.mode == .service
  let s := { s with
    contact := { s.contact with accepting := true }
    cal := { s.cal with minuteAt := s.now }
    expo := { s.expo with d2 := s.d2In s.pmu.mode }
    easels := Vector.ofFn fun (q : Fin 4) => { s.easels[q] with
      pfsValid := !pfs && s.easels[q].pfsValid, pfsWhole := !pfs && s.easels[q].pfsWhole, bandFirst := pfs || s.easels[q].bandFirst, prevArrival := none } }
  (if s.cullKey = key then s else s.wakePlates).publishReach.linkPower false

/-- The running transition completes; one into rest does at its sleep request. -/
def State.moveDone (s : State) (t : Transition) : State :=
  let s := if s.active && !activeMode t.target then (s.thrClose).endPending 0x020E else s
  let s := if t.target = .safelight ∨ t.target = .latent then
    let u := s.tickWaitFail
    { u with regs := { u.regs with staged := [] } }
  else s
  let key := s.cullKey
  let s := s.transDone
  if activeMode t.target then s.enterActive key
  else if t.target = .standby then s.linkPower true
  else if t.target = .safelight then s.setPmu { s.pmu with sleep := .entering }
  else s

/-- Every port has settled, and those that are UP have been UP for 2 ms (R496). -/
def State.portsReady (s : State) : Bool :=
  (List.finRange 4).all fun (q : Fin 4) => !s.training q && ((s.port q).st != .up || decide ((s.port q).upAt + 500000 ≤ s.now))

/-- May the running transition complete, or must it fail now (none: neither)? -/
def State.moveReady (s : State) (t : Transition) : Option Bool :=
  let powered := s.wanted &&& ~~~ s.pmu.powered == 0
  if activeMode t.target then
    if s.active then (if s.frameNext t.target && decide (t.at_ + 500000 ≤ s.now) && powered then some true else none)
    else if !t.second then none
    else if t.target = .service then some true
    else match s.panel.st with
      | .on => if s.portsReady && s.frameNext t.target then some true else none
      | .upSeq => none
      | _ => some false
  else
    match t.target with
    | .standby => if s.stopped t && s.pmu.powered == s.modeMask .standby then some true else none
    | .safelight => if t.second && s.pmu.powered == s.bareMask then some true else none
    | _ => if t.second && s.panel.st == .off && s.pmu.powered == s.bareMask && s.nvm.jobs == [] then some true else none

/-- MODE_SWITCH_AT_TICK (R486, R488, R496, R501, R507): a transition completes at its frame tick, or once its domains are down; into rest the
sleep request is still to come (R493). -/
def execModeSwitchAtTick (s : State) : Out :=
  .next (
    match s.pmu.trans with
    | none => s
    | some t =>
      if s.fw && s.pmu.sleep == .awake then
        match s.moveReady t with
        | none => s
        | some ok => if !ok then s.transFailFree else if t.rest then s.setPmu { s.pmu with sleep := .entering } else s.moveDone t
      else s)

/-! ### Sleep and wake (R493, R494, R503, R509, R510) -/

def wakeCode : WakeSrc → Nat
  | .ucie => 1
  | .pin => 2
  | .alarm => 3
  | .timer => 4
  | .thermal => 5

/-- A source is enabled and can wake the device from where it sleeps (R510). -/
def State.wakeEnabled (s : State) (src : WakeSrc) : Bool :=
  let w := s.reg idWakeCfg
  match src with
  | .ucie => bit w 1
  | .pin => bit w 2
  | .alarm => bit w 3 && s.pmu.mode == .standby
  | .timer => bit w 4
  | .thermal => false

/-- The lower code of a latched source and a new one. -/
def wakeMin (old : Option WakeSrc) (src : WakeSrc) : Option WakeSrc :=
  match old with
  | none => some src
  | some o => if wakeCode src < wakeCode o then some src else some o

/-- The number of the AON_CLK cycle now (R510): 40 ns. -/
def State.aonCycle (s : State) : Nat := s.now / 10

/-- A wake is taken: its source is recorded and acknowledged. -/
def State.wokeBy (s : State) (src : WakeSrc) : State :=
  (s.setRf idWakeStatus 7 4 (wakeCode src)).setPmu { (s.setRf idWakeStatus 7 4 (wakeCode src)).pmu with
    wakeLatched := none, alarm := false, wokeAt := some s.aonCycle }

/-- The signature of a bank's content (R254, R493). -/
def bankSig (n b : Nat) : Word := crc32 (Config.bankBytes n b)

/-- The banks of a mask hold another content from here on. -/
def State.banksChange (s : State) (m : BitVec 8) : State :=
  { s with fresh := s.fresh + 8
           pmu := { s.pmu with banks := Vector.ofFn fun (b : Fin 8) => if m.getLsbD b.val then s.fresh + b.val else s.pmu.banks[b] } }

/-- The banks whose recomputed signature is not the stored one (R494). -/
def State.banksFailed (s : State) : Nat := maskOf ((List.range 8).filter fun b => bankSig (s.pmu.banks.toList.getD b 0) b != s.pmu.sigs.toList.getD b 0)

/-- The cores resume in STANDBY (R494). -/
def State.resume (s : State) : State := ((s.raiseN 0 0x303 0).modeNotice 3 3 false false s.wakeNibble 0).ptpResume

/-- The state of failed banks is reloaded: its records lie in the NVM and in the firmware area, for which the stack leaves self-refresh
through a short training, whose result is free (R326, R494). -/
def State.banksReload (s : State) (fail : Nat) : State :=
  let s := (s.raiseN 552 fail 0).logWrite 4 (leBytes 4 fail)
  let s := s.meetPages recordPages true
  let f := s.free
  let g := f.2.free
  let s := (g.2.leaveRefresh (BitVec.ofNat 64 (f.1.toNat + 2 ^ 32 * g.1.toNat))).trainEnd
  if s.pmu.boot = .failed then s else s.selfRefresh.resume

/-- The device wakes from rest (R494): the signatures are recomputed, and the cores resume, or the failed banks hold code and the host
loads the firmware again. -/
def State.wakeRest (s : State) (bad : BitVec 8) : State :=
  let s := s.banksChange bad
  let fail := s.banksFailed
  let s := (s.setRf idRet 23 16 fail).setPmu { (s.setRf idRet 23 16 fail).pmu with sleep := .awake, retained := false, rest := false }
  let s := { s with dk := { s.dk with lastBeat := s.now } }
  if fail &&& s.rf idRet 31 24 ≠ 0 then
    let t := s.ctrlLost.thmStart
    (t.setPmu { t.pmu with boot := .waitFw, window := true, retDue := true }).raiseN 552 fail 0
  else if fail = 0 then s.resume
  else s.banksReload fail

/-- The device wakes (R494, R503): a wake from SAFELIGHT runs the start-up from the main-supply step, and HOST.MODE holds its reset
value until the firmware starts (R414). -/
def State.wakeUp (s : State) (src : WakeSrc) (bad : BitVec 8) : State :=
  let s := s.wokeBy src
  if s.pmu.sleep = .resting then s.wakeRest bad
  else (s.setPmu { s.pmu with sleep := .awake, mode := .standby, woke := true }).mainStart

/-- A wake before the sleep request stops a move into rest or SAFELIGHT at its next step (R510). -/
def State.wakeStops (s : State) (src : WakeSrc) : State :=
  let s := (s.wokeBy src).transFail 0x0C02
  if s.linksOn then s.trainAll else s

/-- A wake while the domains go down behind a MODE_SET into SAFELIGHT that has been answered (R510, log entry 73): the device powers up again
from there, in STANDBY. -/
def State.wakeBack (s : State) (src : WakeSrc) (bad : BitVec 8) : State :=
  if s.fw then
    let s := s.wokeBy src
    let s := s.setPmu { s.pmu with sleep := .awake, mode := .standby }
    (s.raiseN 0 0x302 0).modeNotice 3 2 false true s.wakeNibble 0
  else s.wakeUp src bad

/-- The notice of a transition names another source. -/
def State.noticeSrc (s : State) (n : Nat) : State :=
  let x := s.dk.notices[1]
  { s with dk := { s.dk with notices := s.dk.notices.set 1 { x with payload := x.payload.set 3 (BitVec.ofNat 8 n) } } }

/-- A source asserts while the device is awake (R509, R510): in the cycle of a wake the lowest code is recorded, and an edge on WAKE is
latched for the next sleep request. -/
def State.wakeEarly (s : State) (src : WakeSrc) : State :=
  let lower := s.pmu.wokeAt == some s.aonCycle && decide (wakeCode src < s.wakeNibble)
  let s := if lower then (s.setRf idWakeStatus 7 4 (wakeCode src)) else s
  let s := if lower ∧ s.dk.running ∧ !s.pmu.woke then s.noticeSrc (wakeCode src) else s
  if src = .pin ∧ 2 ≤ s.rf idWakeCfg 9 8 ∧ s.pmu.wokeAt ≠ some s.aonCycle then s.setPmu { s.pmu with wakeLatched := wakeMin s.pmu.wakeLatched src } else s

/-- The AON timer, which counts while the device sleeps, has reached 0 (R510). -/
def State.timerDue (s : State) : Bool :=
  let ms := (s.reg idAonTimer).toNat
  (s.pmu.sleep == .resting || s.pmu.sleep == .safelight) && decide (0 < ms ∧ s.pmu.sleepAt + 250000 * ms ≤ s.now)

/-- A source that is latched has been latched. -/
def State.wakeHolds (s : State) (src : WakeSrc) : Bool :=
  match src with
  | .alarm => s.pmu.alarm
  | .timer => s.timerDue
  | _ => true

/-- WAKE (R494, R503, R509, R510). -/
def execWake (src : WakeSrc) (bad : BitVec 8) (s : State) : Out :=
  .next (
    if src = .thermal then s.tripRestart
    else if !s.wakeEnabled src || !s.wakeHolds src then s
    else if s.pmu.sleep = .resting ∨ s.pmu.sleep = .safelight then s.wakeUp src bad
    else
      match s.pmu.trans with
      | some t => if t.rest || t.target == .safelight then s.wakeStops src else s.wakeEarly src
      | none => if s.pmu.sleep = .entering then s.wakeBack src bad else s.wakeEarly src)

/-- The level of the WAKE pin asserts under WAKE_MODE. -/
def State.pinAsserts (s : State) (level : Bool) : Bool :=
  match s.rf idWakeCfg 9 8 with
  | 0 => level
  | 1 => !level
  | _ => false

/-- The sources that assert at s + 4 (R509), in the order of their codes. -/
def State.wakeNow (s : State) (level ucie : Bool) : List WakeSrc :=
  let on (src : WakeSrc) (b : Bool) : List WakeSrc := if s.wakeEnabled src && (b || s.pmu.wakeLatched == some src) then [src] else []
  on .ucie ucie ++ on .pin (s.pinAsserts level) ++ on .alarm s.pmu.alarm ++ on .timer false

/-- The PMU sleeps (R493, R509): in rest the signatures of the banks are stored, whose contents the cores have changed since the last. -/
def State.sleepNow (s : State) : State :=
  if s.pmu.mode = .safelight then s.setPmu { s.pmu with sleep := .safelight, sleepAt := s.now }
  else
    let s := s.banksChange 0xFF
    s.setPmu { s.pmu with sleep := .resting, sleepAt := s.now, retained := true
                          sigs := Vector.ofFn fun b => bankSig s.pmu.banks[b] b.val }

/-- The entry has come to its sleep request (R493, R501). -/
def State.maySleep (s : State) : Bool :=
  s.pmu.sleep == .entering && (if s.pmu.mode = .safelight then s.pmu.powered == 1 && s.pmu.pwrEn == 0 && s.pmu.lowering.isNone else s.flushed)

/-- Write the held responses of a Tray while entries are free. -/
def State.writeAll (t : Fin 8) : Nat → State → State
  | 0, s => s
  | n + 1, s => match execResponseWrite t s with | .next u => State.writeAll t n u | _ => s

/-- The move into rest completes, and its response is written before the cores stop (R493). -/
def State.restDone (s : State) : State :=
  match s.pmu.trans with
  | none => s
  | some t =>
    let s := s.moveDone t
    match t.cmd with
    | none => s
    | some c => State.writeAll c.tray (s.tray c.tray).held.length s

/-- SLEEP_REQUEST (R509): an edge on WAKE during the transition is lost; a source that asserts at s + 4 wakes the device at once, when no
bank has had time to fail. -/
def execSleepRequest (pinEdge pinLevel ucie : Bool) (s : State) : Out :=
  .next (if s.maySleep then
    let s := s.restDone.sleepNow
    let s := if pinEdge && bit (s.reg idWakeCfg) 2 && decide (2 ≤ s.rf idWakeCfg 9 8)
      then (s.setRf idWakeStatus 31 31 1).raiseN 551 0 0 else s
    match s.wakeNow pinLevel ucie with
    | [] => s
    | src :: _ => s.wakeUp src 0
  else s)

/-- AON_TIMER_EXPIRE (R510): the AON timer reaches 0 and, where it is enabled, wakes the device. -/
def execAonTimerExpire (bad : BitVec 8) (s : State) : Out := execWake .timer bad s

/-! ### What the host sends (R495) -/

/-- In rest the first access of the host is a wake (R495); which banks are damaged by then is free. -/
def State.hostWake (s : State) (m : Fin 2) : State :=
  let link := (s.ucieOf m).link
  if s.pmu.sleep = .resting ∧ s.wakeEnabled .ucie ∧ (link = .lowPower ∨ link = .up) then (s.free.2).wakeUp .ucie (BitVec.ofNat 8 (fld s.free.1 7 0)) else s

/-- PWR (R362 to R365, R369, R495). -/
def execPwr (x : Ist) (s : State) : Out := .next ((s.hostWake x.m).receive x)

/-- RD (R365 to R369, R495). -/
def execRd (x : Ist) (s : State) : Out := .next ((s.hostWake x.m).receive x)

/-- DOORBELL (R370, R377, R495): a DOORBELL message; it takes effect after the posted writes received before it (R369). -/
def execDoorbell (x : Ist) (s : State) : Out := .next ((s.hostWake x.m).receive x)

/-- CRET (R360, R361, R495). -/
def execCret (x : Ist) (s : State) : Out := .next ((s.hostWake x.m).receiveCret x)

/-! ### Other commands of chapter 21 -/

/-- POWER_READ (R492). -/
def execPowerRead (c : Cmd) (s : State) : Out :=
  .next (if s.mayStart c 0x0903 then
    let mask := c.arg 0 4
    let mw := ((List.range 24).map fun n => if (nodeDomains n).any fun d => mask.testBit d then s.thm.meters.getD n 0 else 0).sum
    s.done c (leBytes 4 s.pmu.powered.toNat ++ leBytes 4 s.pmu.clamped.toNat ++ leBytes 4 mw)
  else s)

/-- SERVICE_PATTERN (R511): it takes effect at the next tick; while one waits another waits behind it. -/
def execServicePattern (c : Cmd) (s : State) : Out :=
  .next (if s.mayStart c 0x0B01 && s.expo.patternNext.isNone then
    if 4 < c.arg 0 1 ∨ 15 < c.arg 1 1 then s.refuse c 0x0C08
    else
      let s := s.startCmd c
      { s with expo := { s.expo with patternNext := some (c, ⟨c.arg 0 1, c.arg 1 1, c.arg 4 2, c.arg 6 2, c.arg 8 2⟩) } }
  else s)

/-- The bytes of a captured line (R253, R512). -/
def State.captureLen (s : State) (tap : Nat) : Nat :=
  match tap with
  | 0 => 8 * 512 * s.qw
  | 1 => 4 * 512 * s.qw
  | _ => s.chunkSize * s.qw

/-- SERVICE_CAPTURE (R512): the line is taken in the next raster sub-frame that sends it. -/
def execServiceCapture (c : Cmd) (s : State) : Out :=
  .next (if s.mayStart c 0x0B02 && s.loads.capture.isNone then
    if 2 < c.arg 0 1 ∨ 3 < c.arg 1 1 ∨ 16 * s.qh ≤ c.arg 2 2 then s.refuse c 0x0C08
    else if !resultOk (c.arg 8 8) (s.captureLen (c.arg 0 1)) then s.refuse c 0x010A
    else
      let s := s.startCmd c
      { s with loads := { s.loads with capture := some (c, 16, if s.expo.ticked then s.expo.rasterTick + 1 else 0) } }
  else s)

end Sys2Proof.Machine
end

