-- ==== Sys2Proof/Machine/Boot.lean ====
section
/-!
DEFINITION. The firmware image and its start (chapter 24), the warm restart (R390, R553, R554), FW_UPDATE (R555), DOMAIN_RESET (R537 to
R539) and the end of SLOW commands (R386).
-/
namespace Sys2Proof.Machine

/-! ### The image (R550) -/

/-- The checks of R550 on an image whose bytes `get off n` gives, of the length that GO or the command names: the ERR code of the first
that fails, 0 when all pass. -/
def State.imgErr (s : State) (get : Nat → Nat → List Byte) (len : Nat) : Nat :=
  let f (off n : Nat) : Nat := leNat (get off n)
  let code := f 0xC 4
  let zero (off n : Nat) : Bool := (get off n).all fun b => b == 0
  if f 0 4 ≠ 0x57464849 ∨ f 4 2 ≠ 1 ∨ f 7 1 ≠ 0 ∨ f 0xA 2 ≠ 0 ∨ !zero 0x14 12 ∨ !zero 0xE0 800 ∨ code % 64 ≠ 0 ∨ 3144704 < code ∨
      f 0x10 4 % 4 ≠ 0 ∨ code ≤ f 0x10 4 ∨ len ≠ 0x400 + code then 0x10
  else if 1 < f 6 1 ∨ Config.sha384 (get 0x20 96) ≠ Config.keyHash (f 6 1) ∨ Config.revoked.getLsbD (f 6 1) then 0x11
  else if !Config.ecdsaVerify (get 0x20 96) (get 0x80 96) (Config.sha384 (get 0 0x80 ++ get 0x400 code)) then 0x12
  else if f 8 2 < s.svnMin then 0x13
  else 0

/-- The full training of the stack (R326): every byte reads 0 afterwards, and no plate is kept. -/
def State.fullTrain (s : State) : State :=
  let s := s.dramLost
  (s.refreshFrom.trained 0).dropPlates.syncActions

/-- FW_IMAGE_VERIFIED (R545 steps 7 and 8, R550, R326). A refused image reopens the window; after an accepted one DMC is powered, once
PLL_DMC is locked (step 5), and the stack trained, unless the hardware has been running throughout (R554). -/
def execFwImageVerified (trainFail : BitVec 64) (s : State) : Out :=
  .next (if s.pmu.boot == .verify && s.up dCtrl && s.locked 1 && (s.dk.running || s.locked 5) then
    let r := s.imgErr s.imgBytes s.dk.imageLen
    if r ≠ 0 then
      s.setPmu { s.pmu with boot := .waitFw, window := true, bootErr := r, attempts := min 255 (s.pmu.attempts + 1) }
    else
      let s := s.setPmu { s.pmu with boot := .dramTrain }
      if s.dk.running then s
      else
        let s := if s.up dDmc then s else s.domainOn dDmc 0
        if trainFail = 0 then s.fullTrain
        else
          let s := s.dramLost.trainFail trainFail
          s.setPmu { s.pmu with boot := .failed, bootErr := 0x20 }
  else s)

/-! ### Firmware start (R551) -/

/-- A bracket's count and time from its ring (R456, R522). -/
def State.bracketLoad (s : State) (k : Nat) : BracketTime :=
  match s.ctrTop k with
  | none => ⟨0, 0, 0, false, false⟩
  | some (i, _) =>
    let p := s.nvmPage (16 * k + i)
    ⟨leAt p 8 8, leAt p 0x10 6, leAt p 0x16 4, (leAt p 0x1A 2).testBit 0, (leAt p 0x1A 2).testBit 1⟩

/-- Step 2 of R551: the records are read; the running counters are the stored ones, or the running ones where these are ahead. -/
def State.readRecords (s : State) : State :=
  let s := s.meetPages recordPages true
  let vals : Vector Nat 8 := Vector.ofFn fun k => max (s.ctrStored k.val).1 s.cnt.vals[k]
  { s with cnt := ⟨vals, s.lastModeStored, (match s.ppiRecord with | none => 0 | some (_, r) => r.loads)⟩ }

/-- The trip page that the PMU has written since the last start is copied into the log as a KIND 2 record: its tick, its time and its
detail (R481, R526; log entry 44). -/
def State.tripCopy (s : State) : State :=
  if !s.nvm.tripDue then s
  else
    let s := { s with nvm := { s.nvm with tripDue := false } }
    match s.ctrTop 4 with
    | none => s
    | some (i, _) =>
      let p := s.nvmPage (64 + i)
      s.logPut 2 (leAt p 0x28 4) ((p.drop 0x10).take 12) (p.drop 0x1C)

/-- The brown-out, supply-failure and retention records that are due (R494, R506, R526, R547). -/
def State.dueRecords (s : State) : State :=
  let m := s.rf idBor 2 0
  let s := if s.pmu.borDue then ((s.ctrBump 5 (leBytes 4 m)).logWrite 3 (leBytes 4 m)).raiseN 550 m 0 else s
  let s := if s.pmu.failDue ∧ s.rf idPmuBoot 1 0 ≠ 0 then s.logWrite 3 (leBytes 4 (s.reg idPmuBoot).toNat) else s
  let s := if s.pmu.retDue then s.logWrite 4 (leBytes 4 (s.rf idRet 23 16)) else s
  s.setPmu { s.pmu with borDue := false, failDue := false, retDue := false }

/-- The entries of the parameter bank in force (R528). -/
def State.bankEntries (s : State) : List (Nat × Word) :=
  match inForce (s.bankSeq 0) (s.bankSeq 1) with
  | none => []
  | some b =>
    let bytes := s.nvmPages (bankBase b) 255
    ((List.range 2040).map fun i => (leAt bytes (8 * i) 2, BitVec.ofNat 32 (leAt bytes (8 * i + 4) 4))).filter fun e => e.1 != 0

/-- Step 4 of R551 (R528): the bank is applied as one PARAM_SET from T0; an entry that fails is skipped with E4. -/
def State.applyBank (s : State) : State :=
  s.bankEntries.foldl (fun s e =>
    if s.entryCheck 0 e.1 e.2 = 0 then s.applyEntries [e]
    else s.settingRefused e.1 (match findReg e.1 with | none => 0xFFFFFFFF#32 | some f => s.reg f.lowId ^^^ e.2)) s

/-- The banks that hold code (R494): what the firmware sets RET.CODE to is the image's own, and free (log entry 68). -/
def State.markCode (s : State) : State := s.setRf idRet 31 24 (Config.codeBanks s.dk.imageLen).toNat

/-- The FW bits that the firmware sets for the sources that it handles (R422): which these are is its own, and free (log entry 155). -/
def State.markFw (s : State) : State :=
  (List.range 576).foldl (fun s n =>
    if (severity? n).isSome && Config.fwHandles n then s.setRf (idEvCfg n) 7 7 1 else s) s

/-- The first firmware start after a cold reset counts in counter 0 (R523). -/
def State.powerOnCount (s : State) : State :=
  if s.pmu.cold then (s.ctrBump 0 []).setPmu { (s.ctrBump 0 []).pmu with cold := false } else s

/-- The firmware starts (R551): STANDBY, PROFILE NONE, the stack in self-refresh. -/
def State.fwBoot (s : State) : State :=
  let woke := s.pmu.woke
  let s := { s with dk := { s.dk with running := true, restarting := none, icsSet := true, lastBeat := s.now } }
  let s := s.setPmu { s.pmu with boot := .fwRunning, mode := .standby, sleep := .awake, rest := false, woke := false, trans := none }
  let s := s.readRecords.tripCopy.dueRecords
  let s := s.powerOnCount.markCode
  let s := s.applyBank.wearLoad
  let s := { s with cal := { s.cal with profile := .none, g := s.bracketLoad 2, l := s.bracketLoad 3 }
                    panel := { s.panel with releaseDue := s.cnt.lastMode == 1 } }
  let s := s.selfRefresh.linkPower true
  let s := (s.setPmu { s.pmu with started := true }).markFw.raiseN 2 0 0
  if woke then (s.raiseN 0 0x302 0).modeNotice 3 2 false true s.wakeNibble 0 else s

/-! ### Warm restart (R390, R553, R554) -/

/-- The ABORTED response of a command (R382, R390). -/
def Resp.abort (r : Resp) : Resp := { r with status := 4, final := true, reason := 0x010C, payload := List.replicate 24 0 }

/-- Responses in the order in which their commands were taken, before the index head: a Tray has at most 256 commands in flight
(R376, R377). -/
def byTaken (head : Nat) (l : List Resp) : List Resp :=
  (List.range 256).reverse.flatMap fun d => l.filter fun r => idxSub head r.index == d + 1

/-- A Tray's commands that were taken and have no final response in the ring are answered ABORTED, in the order taken (R390); interim
responses that wait stay (R384). -/
def Tray.abort (y : Tray) (now : Nat) (taken : List Cmd) : Tray :=
  let mine := taken.map fun c => ⟨now, c.tag, c.opcode, 4, true, 0x010C, [], c.index⟩
  { y with held := (y.held.filter fun r => !r.final) ++ byTaken y.cmdHead (((y.held.filter Resp.final) ++ mine).map Resp.abort) }

/-- The responses of R390 in every Tray. -/
def State.abortTaken (s : State) : State :=
  { s with trays := Vector.ofFn fun (t : Fin 8) => s.trays[t].abort s.now (s.dk.taken.filter fun c => c.tray == t) }

/-- A YTC_LOAD into a plate that ends without being done gives its write credit back (R211, R341). -/
def State.dropLoad (s : State) (c : Cmd) : State :=
  if c.opcode = 0x0304 ∧ c.arg 0x0C 1 = 0 then
    let p : Fin 8 := Fin.ofNat 8 (c.arg 0x0D 1 % 8)
    (s.dropCredit p (s.plate p).backIx 1).evalReady p
  else s

/-- What the firmware was doing ends with it; the hardware goes on (R553). -/
def State.dropWork (s : State) : State :=
  let s := s.dk.started.foldl State.dropLoad s
  { s with
    regs := { s.regs with staged := [] }
    dk := { s.dk with taken := [], started := [], tickWaits := [] }
    loads := { s.loads with dodge := [], capture := none }
    expo := { s.expo with patternNext := none }
    nvm := { s.nvm with results := [] }
    cal := { s.cal with loading := false, lBusy := false, lTarget := none, lCmd := none, gCmd := none }
    panel := { s.panel with cmds := [], trainCmds := [], retain := none, retainDue := [] }
    ports := s.ports.map Port.dropRetain
    plates := Vector.ofFn fun (p : Fin 8) =>
      let x := s.plates[p]
      { x with back := if x.back = .opening then .closed else x.back, opening := none }
    pmu := { s.pmu with trans := none, sleep := if s.pmu.sleep = .entering then .awake else s.pmu.sleep } }

/-- The restarted firmware runs steps 1, 2, 4 and 6 of R551, without the parameter bank, and reports (R390, R553). -/
def State.restartDone (s : State) (cause : Nat) : State :=
  let s := s.abortTaken.dropWork
  let s := { s with dk := { s.dk with restarting := none, icsSet := true, lastBeat := s.now, restarts := s.dk.restarts + 1 } }
  let s := s.setPmu { s.pmu with boot := .fwRunning, window := false }
  let s := ((s.readRecords.tripCopy.dueRecords).ctrBump 7 []).markCode
  ((s.notice 3 (leBytes 1 cause ++ [0, 0, 0] ++ leBytes 4 s.dk.restarts)).raiseN 35 0 0).rfcKept.ptpResume

/-- WARM_RESTART (R553, R554): the code in SRAM is checked; when it fails the window opens for another image. The records are read behind
what the NVM's port still has to do (R515). -/
def execWarmRestart (s : State) : Out :=
  .next (
    match s.dk.restarting with
    | none => s
    | some cause =>
      if s.up dCtrl && s.locked 1 && s.pmu.boot == .fwRunning && s.nvm.jobs == [] then
        if s.imgErr s.imgBytes s.dk.imageLen = 0 then s.restartDone cause
        else s.setPmu { s.pmu with boot := .waitFw, window := true, bootErr := 0x14 }
      else s)

/-- FW_START (R551, R554), behind what the NVM's port still has to do (R515). -/
def execFwStart (s : State) : Out :=
  .next (if s.pmu.boot == .dramTrain && s.up dCtrl && s.locked 1 && s.nvm.jobs == [] then
    match s.dk.restarting with
    | some cause => s.restartDone cause
    | none => if !s.dk.running && s.dmc.state == .run then s.fwBoot else s
  else s)

/-! ### FW_UPDATE (R555) -/

/-- FW_UPDATE (R555), once the image can be read (R316, R328): the warm restart starts when its DONE response is written
(RESPONSE_WRITE). The fuses count up to 64. -/
def execFwUpdate (c : Cmd) (s : State) : Out :=
  .next (if s.mayStart c 0x0006 then
    let a := c.arg 0 8
    let n := c.arg 8 4
    if !hostRange a n then s.refuse c 0x010A
    else if !s.room .firmware a n then s
    else
      let get (off k : Nat) : List Byte := s.dramRead (a + off) k
      let r := s.imgErr get n
      let s := s.access .firmware a n
      if r ≠ 0 then s.refuse c (0x0E00 + r)
      else
        let svn := leNat (get 8 2)
        let raised := if (c.arg 0xC 4).testBit 0 && decide (s.svnMin < svn) then min 64 svn else s.dk.svnRaised
        ({ s with dk := { s.dk with svnRaised := raised, image := ringWrite [] 0 (get 0 n), imageLen := n } }).done c []
  else s)

/-! ### DOMAIN_RESET (R537 to R539) -/

/-- The reset of LINK_A or LINK_B: the module goes down and trains again (R373, R539); what it has received waits on, without its
slots (R337). -/
def State.linkReset (s : State) (m : Fin 2) : State :=
  let s := s.linkDown m
  let mine (id : Nat) : Bool := decide (0x0800 + 32 * m.val ≤ id ∧ id < 0x0820 + 32 * m.val)
  let s := { s with regs := { s.regs with held := s.regs.held.filter fun e => !mine e.1
                                          ctrs := s.regs.ctrs.filter fun e => !mine e.1, hold := s.regs.hold.filter fun e => !mine e.1 } }
  let s := s.slicesReset (linkPools m)
  let u := s.ucieOf m
  s.setUcie m { Ucie.reset with link := .train, configured := u.configured, sent := u.sent, waiting := u.waiting.map fun x => (x.1, false) }

/-- DOMAIN_RESET (R537, R539): it ends in SLOW_COMMAND_DONE. -/
def execDomainReset (c : Cmd) (s : State) : Out :=
  .next (if s.mayStart c 0x0007 then
    match c.arg 0 1 with
    | 2 => (s.startCmd c).linkReset 0
    | 3 => if (s.ucieOf 1).configured then (s.startCmd c).linkReset 1 else s.refuse c 0x0D01
    | 4 =>
      if s.pmu.mode ≠ .service then s.refuse c 0x0109
      else
        let s := s.startCmd c
        let s := if s.panel.st = .off then s else s.panelSafe .host
        s.ctStop.flushAll
    | _ => s.refuse c 0x0D01
  else s)

/-- The reset of DATA (R538, R539): the tables that the Easels hold go with it, and are reloaded once the kept regions are checked
(R496). The reason of a pending COMMIT is a free value (log entry 36). -/
def State.dataReset (s : State) (fails : BitVec 64) : State :=
  let enabled := bit (s.reg idRfcCtrl) 0
  let f := s.free
  let s := f.2.endPending (fld f.1 15 0)
  let keep (id : Nat) : Bool := !dataReg id
  let s := { s with regs := { s.regs with
    held := s.regs.held.filter fun e => keep e.1, ctrs := s.regs.ctrs.filter fun e => keep e.1
    hold := s.regs.hold.filter fun e => keep e.1, live := [], snap := s.regs.snap.filter fun e => keep e.1, staged := [] } }
  let s := s.dropPlates.tablesLose
  let s := s.slicesReset ((List.range 25).map (18 + ·))
  let s := { s with
    expo := { Expo.reset with tick := s.expo.tick, rasterTick := s.expo.rasterTick, ticked := s.expo.ticked, snapSeq := s.expo.snapSeq
                              stop := s.expo.stop, d2 := s.expo.d2, sched := s.expo.sched
                              patternNext := s.expo.patternNext }
    easels := Vector.replicate 4 Easel.reset
    fixers := Vector.replicate 8 Fixer.reset
    ports := Vector.ofFn fun (q : Fin 4) => s.ports[q].lost q
    contact := Contact.reset
    dmc := { s.refreshFrom.dmc with
      pcs := Vector.replicate 64 PseudoCh.reset, debt := [], sidPd := 0, ceRaised := 0, deferred := [], scrubPos := 0
      lastPass := Vector.replicate 32 s.now, sidIdle := Vector.replicate 8 s.now }
    loads := { s.loads with dodge := [] } }
  let s := (List.finRange 12).foldl (fun s (k : Fin 12) => if s.up (dEc k.val) then s.rfcFill k else s) s
  let s := (s.leaveRefresh fails).rebuildFlags
  let s := if enabled = bit (s.reg idRfcCtrl) 0 then s else s.rfcTrigger
  let s := s.rfcKept
  let ok := s.keptOk
  let s := s.keptScrub.keptReload
  if ok then s else { s with cal := { s.cal with profile := .invalid } }

/-- The commands whose work the group does have ended (R342, R539): PLATE_OPEN, YTC_LOAD, PPI_LOAD, PL_RETRAIN, PNL_CFG_WRITE and
PNL_CFG_READ. -/
def State.dataIdle (s : State) : Bool :=
  s.fabIdle && s.dk.started.all fun c => !([0x0301, 0x0304, 0x0401, 0x0603, 0x0604, 0x0605].contains c.opcode)

/-- The end of a DOMAIN_RESET: the module is UP again, or the group is drained and reset. -/
def State.resetDone (s : State) (c : Cmd) (fails : BitVec 64) : State :=
  match c.arg 0 1 with
  | 2 => if (s.ucieOf 0).link = .up then s.done c [] else s
  | 3 => if (s.ucieOf 1).link = .up then s.done c [] else s
  | _ => if s.panel.st == .off && s.dataIdle then ((s.ctCancel.selfRefresh.dataReset fails).trainEnd).done c [] else s

/-! ### The end of SLOW commands (R386) -/

/-- SLOW_COMMAND_DONE: the work of a SLOW command whose end has no row of its own is done. -/
def execSlowCommandDone (c : Cmd) (r : SlowResult) (s : State) : Out :=
  .next (if s.fw && s.waits c then
    match c.opcode with
    | 0x0304 => s.ytcDone c
    | 0x0401 => s.ppiDone c r.writeFailed
    | 0x0702 => s.scrubDone c r
    | 0x0A01 => s.resultDone c
    | 0x0A04 => s.resultDone c
    | 0x0803 => s.ptpConfigDone c
    | 0x0007 => s.resetDone c r.trainFail
    | _ => s
  else s)

end Sys2Proof.Machine
end

