-- ==== Sys2Proof/Machine/Fetch.lean ====
section
/-!
DEFINITION. What the engines fetch (chapters 4 to 6): the blocks that a strip's skip list leaves (R131, R132, R171 to R174), the order of
fetches by urgency (R179), and DEVELOPER_FETCH with the caches (R162, R181, R206, R208).
-/
namespace Sys2Proof.Machine

/-- The atlas tile that holds block blk of a plate plane (R164); the chroma plane has half the size. -/
def Plane.tileOf (pl : Plane) (blk : Nat) : Nat × Nat :=
  let k := if pl.no = 1 then 2 else 1
  let a := blocksAcross pl.lay pl.w
  (blk % a * (k * layoutTexW pl.lay) / 64, blk / a * (k * layoutBh pl.lay) / 64)

/-- May an engine read view (i, j) and plane n of a plate? In FLAT a VIEWSET plate has its middle view alone and a RELIEF plate no depth
(R95, R160). -/
def viewRead (c : Placed) (flat : Bool) (n i j : Nat) : Bool :=
  !flat || (n != 3 && (c.typ != 2 || (i == c.vx / 2 && j == c.vy / 2)))

/-- Does a strip of quadrant q that keeps slot p fetch block blk of plane pl (R171, R173)? Its tile lies in the footprint, and a TRANSPARENT
tile is fetched of the D16 plane alone. -/
def State.plateNeeds (s : State) (q : Fin 4) (x : Strip) (p : Fin 8) (pl : Plane) (blk : Nat) : Bool :=
  let c := s.placed p
  let flat := s.flatNow
  let t := pl.tileOf blk
  let tx := t.1 % (c.w / 64)
  let ty := t.2 % (c.h / 64)
  viewRead c flat pl.no (t.1 / (c.w / 64)) (t.2 / (c.h / 64)) &&
    (footTiles c (footprint c (s.stripBox q (s.easel q).steer x.row x.m) flat)).contains (tx, ty) &&
    (pl.no == 3 || !(bit (s.reg (idMaskCtrl q.val)) 0 && s.tileIs p 1 tx ty))

/-- Does a strip of quadrant q fetch block blk of the residual plane (R124, R131, R132)? Residuals are enabled, and the block holds a byte of
one of its pixels. -/
def State.residNeeds (s : State) (q : Fin 4) (x : Strip) (blk : Nat) : Bool :=
  let pl := s.residPlane
  let a := blocksAcross pl.lay pl.w
  let mg := x.m + quadRight q * s.qw
  let hy := x.row + quadBelow q * s.qh
  !s.flatNow && s.residEn &&
    decide (512 * mg < 64 * (blk % a) + 64 ∧ 64 * (blk % a) < 512 * mg + 512 ∧ 16 * hy < 8 * (blk / a) + 8 ∧ 8 * (blk / a) < 16 * hy + 16)

/-- The plane that engines may fetch a block of: a plane of a front buffer, or the residual plane. -/
def State.fetchPlane (s : State) (p : PlaneRef) : Option Plane :=
  match p with
  | .plate slot buf n => if buf = (s.plate slot).front then (s.buf slot buf).plane n.val else none
  | .residual => some s.residPlane
  | _ => none

/-- Does a strip's skip list leave block blk of a plane to be fetched? A SKIPPED, OCCLUDED or DORMANT plate is not. -/
def State.stripNeeds (s : State) (q : Fin 4) (x : Strip) (p : PlaneRef) (blk : Nat) : Bool :=
  match s.fetchPlane p with
  | none => false
  | some pl =>
    decide (blk < pl.blocks) &&
      match p with
      | .plate slot _ _ => (s.blendNow.zip (x.marks.getD [])).contains (slot.val, 0) && s.plateNeeds q x slot pl blk
      | _ => s.residNeeds q x blk

/-- The planes that the engines' fetches name. -/
def State.fetchPlanes (s : State) : List PlaneRef :=
  .residual :: s.blendNow.flatMap fun k =>
    (List.finRange 4).map fun (n : Fin 4) => .plate (Fin.ofNat 8 k) (s.plate (Fin.ofNat 8 k)).front n

/-- The slot addresses of every block that a strip fetches. -/
def State.stripBlocks (s : State) (q : Fin 4) (x : Strip) : List Nat :=
  s.fetchPlanes.flatMap fun p =>
    match s.fetchPlane p with
    | none => []
    | some pl => ((List.range pl.blocks).filter fun b => s.stripNeeds q x p b).map fun b => pl.addr + 512 * b

/-- Have all of a strip's fetches been issued? -/
def State.allFetched (s : State) (q : Fin 4) (n : Fin 96) (x : Strip) : Bool :=
  (s.stripBlocks q x).all fun a => x.fetched.contains a || s.caches.texels[n].any fun l => l.1 == a

/-- The strips that engine n holds, its current one first (R177). -/
def State.engineStrips (s : State) (n : Fin 96) : List Strip :=
  (s.easel (Fin.ofNat 4 (n.val / 24))).strips.filter fun x => x.engine == some n.val

/-- The strip for which engine n may fetch block blk now (R179): the current one, else the queued one, under URGENT only once all of the
current one's fetches have been issued; under PANIC an engine with strips of later rows only fetches nothing. -/
def State.fetchFor (s : State) (n : Fin 96) (p : PlaneRef) (blk : Nat) : Option Strip :=
  let q : Fin 4 := Fin.ofNat 4 (n.val / 24)
  let urg := (s.easel q).urg
  match s.engineStrips n with
  | [] => none
  | x :: rest =>
    if urg = .panic && !(x :: rest).any fun y => s.firstRow q == some y.row then none
    else if s.stripNeeds q x p blk then some x
    else if urg = .urgent && !s.allFetched q n x then none
    else rest.find? fun y => s.stripNeeds q y p blk

/-- The bytes that a block's texels take in a texel cache: 8 for each texel of the working format, 2 for a depth, 1 for a residual byte
(R112, R181; log entry 129). -/
def texelBytes (p : PlaneRef) (pl : Plane) : Nat :=
  let n := layoutTexW pl.lay * layoutBh pl.lay
  match p with
  | .residual => n
  | _ => if pl.no = 3 then 2 * n else 8 * n

/-- Whose ways hold the blocks of a plane: its slot's, or 8 for the residual plane. -/
def wayOwner (p : PlaneRef) : Nat := match p with | .plate slot _ _ => slot.val | _ => 8

/-- A strip takes note of a fetch. -/
def Easel.fetchedBy (e : Easel) (x : Strip) (a : Nat) : Easel :=
  { e with strips := e.strips.map fun y => if y = x then { y with fetched := y.fetched ++ [a] } else y }

/-- DEVELOPER_FETCH: engine n fetches a block that one of its strips needs, in its quadrant's urgency class (R33, R179) and once the DRAM
scheduler has tokens for it (R316), and a fetch Developer of its cluster decodes it; one that cannot be delivered is counted and reported
(R208) and not kept. The texels that taps read are those of STRIP_DELIVERED: what the caches hold never changes a value (R181). -/
def execDeveloperFetch (n : Fin 96) (p : PlaneRef) (blk : Nat) (s : State) : Out :=
  .next (
    let c : Fin 12 := Fin.ofNat 12 (n.val / 8)
    let q : Fin 4 := Fin.ofNat 4 (n.val / 24)
    match s.fetchPlane p, s.fetchFor n p blk with
    | some pl, some x =>
      let a := pl.addr + 512 * blk
      let ent := pl.ent + 2 * blk
      if s.up (dEc c.val) && s.locked 4 && s.room (.fetch q) (ent / 64 * 64) 64 && s.room (.fetch q) a (s.slotLen ent) &&
          !s.caches.texels[n].any fun l => l.1 == a then
        let s := (s.setEasel q ((s.easel q).fetchedBy x a)).devRead (.fetch q) a ent
        match s.readPlane pl blk with
        | .bytes _ =>
          let s := { s with caches := { s.caches with clusters := s.caches.clusters.set c (s.caches.clusters[c].fill (wayOwner p) a) } }
          s.fillTexels n a (texelBytes p pl)
        | .invalid => (s.addCtr (idDevInvalid c.val) 1).raiseN 321 a (a / 2 ^ 32)
        | .uncorr => (s.addCtr (idDevUncorr c.val) 1).raiseN 322 a (a / 2 ^ 32)
      else s
    | _, _ => s)

end Sys2Proof.Machine
end

