-- ==== Sys2Proof/Machine/Dispatch.lean ====
section
/-!
DEFINITION. One arm for every command: exec gives a command's effect on everything but the queue.
-/
namespace Sys2Proof.Machine

def exec (i : Instr) (s : State) : Host.Outcome State Fault Refusal :=
  match i with
  | .nop c => Sys2Proof.Machine.execNop c s
  | .identify c => Sys2Proof.Machine.execIdentify c s
  | .modeGet c => Sys2Proof.Machine.execModeGet c s
  | .modeSet c => Sys2Proof.Machine.execModeSet c s
  | .modeSwitchAtTick => Sys2Proof.Machine.execModeSwitchAtTick s
  | .trayConfig c => Sys2Proof.Machine.execTrayConfig c s
  | .fwUpdate c => Sys2Proof.Machine.execFwUpdate c s
  | .domainReset c => Sys2Proof.Machine.execDomainReset c s
  | .tickWait c => Sys2Proof.Machine.execTickWait c s
  | .paramGet c => Sys2Proof.Machine.execParamGet c s
  | .paramSet c => Sys2Proof.Machine.execParamSet c s
  | .paramInfo c => Sys2Proof.Machine.execParamInfo c s
  | .paramSave c => Sys2Proof.Machine.execParamSave c s
  | .paramDefaults c => Sys2Proof.Machine.execParamDefaults c s
  | .commit c => Sys2Proof.Machine.execCommit c s
  | .commitCancel c => Sys2Proof.Machine.execCommitCancel c s
  | .stageClear c => Sys2Proof.Machine.execStageClear c s
  | .expoQuery c => Sys2Proof.Machine.execExpoQuery c s
  | .admitTry c => Sys2Proof.Machine.execAdmitTry c s
  | .plateOpen c => Sys2Proof.Machine.execPlateOpen c s
  | .plateOpenDone slot => Sys2Proof.Machine.execPlateOpenDone slot s
  | .plateSeal c => Sys2Proof.Machine.execPlateSeal c s
  | .plateInfo c => Sys2Proof.Machine.execPlateInfo c s
  | .ytcLoad c => Sys2Proof.Machine.execYtcLoad c s
  | .ppiLoad c => Sys2Proof.Machine.execPpiLoad c s
  | .refocusRead c => Sys2Proof.Machine.execRefocusRead c s
  | .bracketRun c => Sys2Proof.Machine.execBracketRun c s
  | .bracketStatus c => Sys2Proof.Machine.execBracketStatus c s
  | .contactSubmit c => Sys2Proof.Machine.execContactSubmit c s
  | .contactStatus c => Sys2Proof.Machine.execContactStatus c s
  | .panelOn c => Sys2Proof.Machine.execPanelOn c s
  | .panelOff c => Sys2Proof.Machine.execPanelOff c s
  | .plRetrain c => Sys2Proof.Machine.execPlRetrain c s
  | .sbCfgWrite c => Sys2Proof.Machine.execSbCfgWrite c s
  | .sbCfgRead c => Sys2Proof.Machine.execSbCfgRead c s
  | .panelRetain c => Sys2Proof.Machine.execPanelRetain c s
  | .panelRelease c => Sys2Proof.Machine.execPanelRelease c s
  | .dramMap c => Sys2Proof.Machine.execDramMap c s
  | .dramScrub c => Sys2Proof.Machine.execDramScrub c s
  | .timeGet c => Sys2Proof.Machine.execTimeGet c s
  | .timeAdjust c => Sys2Proof.Machine.execTimeAdjust c s
  | .ptpConfig c => Sys2Proof.Machine.execPtpConfig c s
  | .tsRead c => Sys2Proof.Machine.execTsRead c s
  | .timedOutput c => Sys2Proof.Machine.execTimedOutput c s
  | .thermalRead c => Sys2Proof.Machine.execThermalRead c s
  | .throttleStatus c => Sys2Proof.Machine.execThrottleStatus c s
  | .powerRead c => Sys2Proof.Machine.execPowerRead c s
  | .nvmRead c => Sys2Proof.Machine.execNvmRead c s
  | .nvmWrite c => Sys2Proof.Machine.execNvmWrite c s
  | .counterRead c => Sys2Proof.Machine.execCounterRead c s
  | .logRead c => Sys2Proof.Machine.execLogRead c s
  | .servicePattern c => Sys2Proof.Machine.execServicePattern c s
  | .serviceCapture c => Sys2Proof.Machine.execServiceCapture c s
  | .pwr x => Sys2Proof.Machine.execPwr x s
  | .apertureSlotTaken m => Sys2Proof.Machine.execApertureSlotTaken m s
  | .rd x => Sys2Proof.Machine.execRd x s
  | .doorbell x => Sys2Proof.Machine.execDoorbell x s
  | .cret x => Sys2Proof.Machine.execCret x s
  | .ucieCreditReturn m => Sys2Proof.Machine.execUcieCreditReturn m s
  | .ucieLinkUp m rate repaired reduced vc2 vc3 => Sys2Proof.Machine.execUcieLinkUp m rate repaired reduced vc2 vc3 s
  | .ucieLinkDown m => Sys2Proof.Machine.execUcieLinkDown m s
  | .ucieRetrain m => Sys2Proof.Machine.execUcieRetrain m s
  | .flitCrcFail m => Sys2Proof.Machine.execFlitCrcFail m s
  | .ubConfigWindowExpire heard => Sys2Proof.Machine.execUbConfigWindowExpire heard s
  | .commandTaken => Sys2Proof.Machine.execCommandTaken s
  | .responseWrite t => Sys2Proof.Machine.execResponseWrite t s
  | .respRingFull t => Sys2Proof.Machine.execRespRingFull t s
  | .heartbeat => Sys2Proof.Machine.execHeartbeat s
  | .fwStall => Sys2Proof.Machine.execFwStall s
  | .dkRestartWrite v => Sys2Proof.Machine.execDkRestartWrite v s
  | .warmRestart => Sys2Proof.Machine.execWarmRestart s
  | .registerWrite id v hwSet => Sys2Proof.Machine.execRegisterWrite id v hwSet s
  | .counterLoRead id => Sys2Proof.Machine.execCounterLoRead id s
  | .timebaseReadCapture blk => Sys2Proof.Machine.execTimebaseReadCapture blk s
  | .tickRunSet => Sys2Proof.Machine.execTickRunSet s
  | .tickRunClear => Sys2Proof.Machine.execTickRunClear s
  | .rfcForceWrite => Sys2Proof.Machine.execRfcForceWrite s
  | .timedOutputArm n => Sys2Proof.Machine.execTimedOutputArm n s
  | .bootGo len => Sys2Proof.Machine.execBootGo len s
  | .eventStatusClear g mask same => Sys2Proof.Machine.execEventStatusClear g mask same s
  | .eventEnableWrite id v => Sys2Proof.Machine.execEventEnableWrite id v s
  | .eventPulse p => Sys2Proof.Machine.execEventPulse p s
  | .eventMessageSend => Sys2Proof.Machine.execEventMessageSend s
  | .tickFire => Sys2Proof.Machine.execTickFire s
  | .tickArrival => Sys2Proof.Machine.execTickArrival s
  | .ledgerCheckStrobe => Sys2Proof.Machine.execLedgerCheckStrobe s
  | .linePeriodStart q => Sys2Proof.Machine.execLinePeriodStart q s
  | .lineSent q => Sys2Proof.Machine.execLineSent q s
  | .skipList q => Sys2Proof.Machine.execSkipList q s
  | .stripDispatch q => Sys2Proof.Machine.execStripDispatch q s
  | .stripDelivered e => Sys2Proof.Machine.execStripDelivered e s
  | .developerFetch n p blk => Sys2Proof.Machine.execDeveloperFetch n p blk s
  | .dramRequest pc r => Sys2Proof.Machine.execDramRequest pc r s
  | .dramIssue pc blocked => Sys2Proof.Machine.execDramIssue pc blocked s
  | .dramRetire pc n err => Sys2Proof.Machine.execDramRetire pc n err s
  | .requestAged pc n => Sys2Proof.Machine.execRequestAged pc n s
  | .ageBound pc n => Sys2Proof.Machine.execAgeBound pc n s
  | .refreshInterval pc sid bank => Sys2Proof.Machine.execRefreshInterval pc sid bank s
  | .bankRefresh pc sid bank => Sys2Proof.Machine.execBankRefresh pc sid bank s
  | .retrainPass d lowMargin => Sys2Proof.Machine.execRetrainPass d lowMargin s
  | .sidPowerDown sid => Sys2Proof.Machine.execSidPowerDown sid s
  | .scrubRead err => Sys2Proof.Machine.execScrubRead err s
  | .odeccRead counts => Sys2Proof.Machine.execOdeccRead counts s
  | .fixerCodeBlock f upset => Sys2Proof.Machine.execFixerCodeBlock f upset s
  | .fixerTokensGranted f => Sys2Proof.Machine.execFixerTokensGranted f s
  | .fixerStoreRetired f => Sys2Proof.Machine.execFixerStoreRetired f s
  | .contactJobStart x => Sys2Proof.Machine.execContactJobStart x s
  | .contactJobComplete x => Sys2Proof.Machine.execContactJobComplete x s
  | .ctWaitExpired x => Sys2Proof.Machine.execCtWaitExpired x s
  | .refocusRebuildDone => Sys2Proof.Machine.execRefocusRebuildDone s
  | .plTrainStart q => Sys2Proof.Machine.execPlTrainStart q s
  | .plTrainTimeout q => Sys2Proof.Machine.execPlTrainTimeout q s
  | .sbPoll q => Sys2Proof.Machine.execSbPoll q s
  | .sbResponse q bytes => Sys2Proof.Machine.execSbResponse q bytes s
  | .sbTimeout q => Sys2Proof.Machine.execSbTimeout q s
  | .retainFail q chip => Sys2Proof.Machine.execRetainFail q chip s
  | .blFrameStart miso => Sys2Proof.Machine.execBlFrameStart miso s
  | .panelUpRailStep => Sys2Proof.Machine.execPanelUpRailStep s
  | .pnlPgRise rail => Sys2Proof.Machine.execPnlPgRise rail s
  | .pgTimeout => Sys2Proof.Machine.execPgTimeout s
  | .pgLost rail => Sys2Proof.Machine.execPgLost rail s
  | .crackMeasure loop ohms => Sys2Proof.Machine.execCrackMeasure loop ohms s
  | .panelSafe cause => Sys2Proof.Machine.execPanelSafe cause s
  | .panelSafeDischargeEnd => Sys2Proof.Machine.execPanelSafeDischargeEnd s
  | .panelRailDownStep => Sys2Proof.Machine.execPanelRailDownStep s
  | .ptpFrameRx fr => Sys2Proof.Machine.execPtpFrameRx fr s
  | .ptpTxStamp seqId msgType => Sys2Proof.Machine.execPtpTxStamp seqId msgType s
  | .tsEntryTimeout => Sys2Proof.Machine.execTsEntryTimeout s
  | .ptpSyncTimeout => Sys2Proof.Machine.execPtpSyncTimeout s
  | .timedOutputEdge n => Sys2Proof.Machine.execTimedOutputEdge n s
  | .timedOutputWidthEnd n => Sys2Proof.Machine.execTimedOutputWidthEnd n s
  | .strobeFire n => Sys2Proof.Machine.execStrobeFire n s
  | .strobeWidthEnd n => Sys2Proof.Machine.execStrobeWidthEnd n s
  | .thmUpdate meters base stack => Sys2Proof.Machine.execThmUpdate meters base stack s
  | .throttleGraceEnd => Sys2Proof.Machine.execThrottleGraceEnd s
  | .throttleCheck => Sys2Proof.Machine.execThrottleCheck s
  | .throttleLift => Sys2Proof.Machine.execThrottleLift s
  | .thermalTrip => Sys2Proof.Machine.execThermalTrip s
  | .tripPageWrite => Sys2Proof.Machine.execTripPageWrite s
  | .thermalRestart => Sys2Proof.Machine.execThermalRestart s
  | .driveHistogramRead => Sys2Proof.Machine.execDriveHistogramRead s
  | .fieldMinute => Sys2Proof.Machine.execFieldMinute s
  | .lBracketDone how => Sys2Proof.Machine.execLBracketDone how s
  | .lBracketTargetTimeout => Sys2Proof.Machine.execLBracketTargetTimeout s
  | .bracketCountSave cls => Sys2Proof.Machine.execBracketCountSave cls s
  | .domainPowerUp d trainFail => Sys2Proof.Machine.execDomainPowerUp d trainFail s
  | .domainPowerDown d => Sys2Proof.Machine.execDomainPowerDown d s
  | .sleepRequest pinEdge pinLevel ucie => Sys2Proof.Machine.execSleepRequest pinEdge pinLevel ucie s
  | .wake src bad => Sys2Proof.Machine.execWake src bad s
  | .aonTimerExpire bad => Sys2Proof.Machine.execAonTimerExpire bad s
  | .safelightRefresh => Sys2Proof.Machine.execSafelightRefresh s
  | .brownout => Sys2Proof.Machine.execBrownout s
  | .nvmPageWriteDone => Sys2Proof.Machine.execNvmPageWriteDone s
  | .pllLossOfLock p => Sys2Proof.Machine.execPllLossOfLock p s
  | .pllRelock p trainFail => Sys2Proof.Machine.execPllRelock p trainFail s
  | .relockTimeout p => Sys2Proof.Machine.execRelockTimeout p s
  | .coldReset => Sys2Proof.Machine.execColdReset s
  | .aonPowerGood failedReads => Sys2Proof.Machine.execAonPowerGood failedReads s
  | .pwrPgRise rail => Sys2Proof.Machine.execPwrPgRise rail s
  | .supplyFail rail => Sys2Proof.Machine.execSupplyFail rail s
  | .supplyRetry => Sys2Proof.Machine.execSupplyRetry s
  | .fwImageVerified trainFail => Sys2Proof.Machine.execFwImageVerified trainFail s
  | .fwStart => Sys2Proof.Machine.execFwStart s
  | .slowCommandDone c r => Sys2Proof.Machine.execSlowCommandDone c r s
  | .ptpLaneLockChange up => Sys2Proof.Machine.execPtpLaneLockChange up s
  | .pnlPgFall rail => Sys2Proof.Machine.execPnlPgFall rail s
  | .pwrPgFall rail => Sys2Proof.Machine.execPwrPgFall rail s
  | .xtalPresent => Sys2Proof.Machine.execXtalPresent s
  | .vauxLoss => Sys2Proof.Machine.execVauxLoss s

end Sys2Proof.Machine
end

