-- ==== Sys2Proof/Safety.lean ====
section
/-!
DEFINITION. What counts as a safe run, in the terms that statements use: no command of the block faults, so a run is safe when every
step answers a next state. Beside it the relations between a state and the next that several statements share: what reporting an
event may change, what answering a command changes, and the canonical form of the addressed memories.
-/
namespace Sys2Proof

open Machine

/-- A step that answers a next state. -/
def Proceeds (s : State) : Prop := ∃ t, step s = .next t

/-- n steps, each of which answers a next state. -/
def Runs : Nat → State → State → Prop
  | 0, s, t => s = t
  | n + 1, s, t => ∃ u, step s = .next u ∧ Runs n u t

namespace Machine

/-- The parameter IDs of the event block (R408): the groups, FATAL and CFG registers, and the captures. -/
def evuReg (id : Nat) : Bool := (decide (0x7400 ≤ id) && decide (id < 0x7800)) || (decide (0x7C00 ≤ id) && decide (id < 0x8800))

/-- All that reporting events may change (chapter 17): the event unit and its registers, its message pool 44, and what the firmware
writes of a fatal event (counter 6, the records that wait at the NVM port, and the count of those lost to protection). -/
structure EventEffect (s t : State) : Prop where
  rest : t = { s with regs := t.regs, evu := t.evu, pools := t.pools, nvm := t.nvm, cnt := t.cnt }
  maps : t.regs = { s.regs with held := t.regs.held, ctrs := t.regs.ctrs }
  reg : ∀ id, evuReg id = false → t.reg id = s.reg id
  ctr : ∀ id, id ≠ idProtRefused → t.ctr id = s.ctr id
  pool : ∀ k, k ≠ 44 → t.pool k = s.pool k
  cnt : ∀ k, k ≠ 6 → t.cntVal k = s.cntVal k
  nvm : t.nvm = { s.nvm with jobs := t.nvm.jobs, since := t.nvm.since, lastPage := t.nvm.lastPage, lastWriter := t.nvm.lastWriter }

/-- The parameter IDs of the channels' error logs (R329, R330). -/
def errReg (id : Nat) : Bool := decide (0x1400 ≤ id) && decide (id < 0x1600)

/-- The units of a pool that are in flight by its two counts (R338). -/
def Pool.flight (p : Pool) : Int := ((p.issued : Int) - p.returned) % 2 ^ 64

/-- All that accesses of the stack within a row may change (R311, R316, R327, R329, R330, R334): bytes, the errors of the beats that they
meet with their counts, logs and events, the counts of bytes and waits, the idle time of the SIDs, and what the caches hold; the DRAM tokens
that they take are back. -/
structure DramEffect (s t : State) : Prop where
  rest : t = { s with
    regs := t.regs, evu := t.evu, pools := t.pools, nvm := t.nvm, cnt := t.cnt, fresh := t.fresh, caches := t.caches
    dmc := { s.dmc with mem := t.dmc.mem, poison := t.dmc.poison, upset := t.dmc.upset, healed := t.dmc.healed
                        ceRaised := t.dmc.ceRaised, sidPd := t.dmc.sidPd, sidIdle := t.dmc.sidIdle } }
  maps : t.regs = { s.regs with held := t.regs.held, ctrs := t.regs.ctrs, live := t.regs.live, clock := t.regs.clock }
  reg : ∀ id, evuReg id = false → errReg id = false → t.reg id = s.reg id
  ctr : ∀ id, id ≠ idProtRefused → (∀ d, d < 32 → id ≠ idDcUe d ∧ id ≠ idDcCe d) → t.ctr id = s.ctr id
  pool : ∀ k, k ≠ 44 → k < 18 ∨ 23 < k → t.pool k = s.pool k
  flight : ∀ k, k ≠ 44 → (t.pool k).flight = (s.pool k).flight
  poison : ∀ b, t.poisoned b = true → s.poisoned b = true ∨ (b, true) ∈ s.dmc.upset
  upset : ∀ e ∈ t.dmc.upset, e ∈ s.dmc.upset
  cnt : ∀ k, k ≠ 6 → t.cntVal k = s.cntVal k
  nvm : t.nvm = { s.nvm with jobs := t.nvm.jobs, since := t.nvm.since, lastPage := t.nvm.lastPage, lastWriter := t.nvm.lastWriter }

/-- A command's one final response (R383) and nothing else: it is held for its Tray's next free entry, and the command is no longer
among those taken. -/
structure Answered (s t : State) (c : Cmd) (status reason : Nat) (payload : List Byte) : Prop where
  rest : t = { s with dk := t.dk, trays := t.trays }
  dk : t.dk = { s.dk with taken := s.dk.taken.erase c, started := s.dk.started.erase c }
  held : t.tray c.tray = { s.tray c.tray with
    held := (s.tray c.tray).held ++ [⟨s.now, c.tag, c.opcode, status, true, reason, padTo 24 payload, c.index⟩] }
  others : ∀ y, y ≠ c.tray → t.tray y = s.tray y

/-- Module x.m is up and takes transaction x: the device does not rest (R495), x is not malformed (R371), and no earlier transaction waits
(R369). -/
structure Accepts (s : State) (x : Ist) : Prop where
  awake : s.pmu.sleep ≠ .resting
  link : (s.ucie[x.m]).link = .up
  power : s.up (dUa + x.m.val) = true
  good : s.malformed x = 0
  clear : (s.ucie[x.m]).waiting = []

/-- The account of pool k holds (R338): its units in flight are those that its occupancy shows, at most its size, and each unit that a source
of pools 43 and 44 produced was issued or dropped. -/
structure Accounted (s : State) (k : Nat) : Prop where
  flight : (s.pool k).flight = s.occupancy k
  size : ∀ n, poolSize k = some n → s.occupancy k ≤ n
  sources : k = 43 ∨ k = 44 → ((s.pool k).produced - (s.pool k).issued - (s.pool k).dropped : Int) % 2 ^ 64 = 0

/-- The accounts of the four queues (pools 41 to 44) hold, and Contact's jobs bear consecutive numbers (R288). -/
structure State.accounts (s : State) : Prop where
  pools : ∀ k, 41 ≤ k → k ≤ 44 → Accounted s k
  seqs : ∀ x : Fin 2, (s.ctQ x).nextSeq < 2 ^ 32 ∧ (s.ctQ x).jobs.map CtJob.seq =
    (List.range (s.ctQ x).jobs.length).map fun i => ((s.ctQ x).nextSeq + 2 ^ 32 - (s.ctQ x).jobs.length + i) % 2 ^ 32

/-- The registers' maps in canonical form: held registers, counters, hold registers, live counters and the staged entries. -/
def RegFile.canonical (r : RegFile) : Bool :=
  mapWf resetWord r.held && mapWf (fun _ => 0) r.ctrs && mapWf (fun _ => 0) r.hold && mapWf (fun _ => 0) r.live &&
  mapWf (fun _ => 0) r.clock.before && mapSorted none r.staged

/-- The memory controllers' maps in canonical form: the bytes, the poisoned, wrong and healed places, the refresh debts and times, and each
pseudo-channel's open rows. -/
def Dmc.canonical (d : Dmc) : Bool :=
  mapWf dram0 d.mem && mapSorted none d.poison && mapSorted none d.upset && mapSorted none d.healed &&
  mapWf (fun _ => 0) d.debt && mapWf (fun _ => d.refFrom) d.refT && d.pcs.toList.all fun x => mapSorted none x.rows

/-- An Easel's maps in canonical form: the line buffer, the corrected lines, the new store bytes and the drive histogram. -/
def Easel.canonical (e : Easel) : Bool :=
  mapWf (fun _ => rgba0) e.buf && mapWf (fun _ => 0) e.outw && mapSorted none e.pfsNew && mapWf (fun _ => 0) e.hist

/-- The addressed memories and register maps are in canonical form: those of the registers and of the stack, the NVM's bytes and pages, the
firmware's image in SRAM, AON SRAM, the wear accumulators, the Easels' buffers and the Tray rings. -/
def State.canonical (s : State) : Bool :=
  s.regs.canonical && s.dmc.canonical && mapWf nvmByte0 s.nvm.bytes && mapWf nvmPage0 s.nvm.pages && mapWf ring0 s.dk.image &&
  mapWf dram0 s.pmu.aonSram && mapWf (fun _ => 0) s.cal.wear && s.easels.toList.all Easel.canonical &&
  s.trays.toList.all fun y => mapWf ring0 y.cmdRing && mapWf ring0 y.respRing

end Machine

end Sys2Proof
end

