-- ==== Sys2Proof/Certificates/Slice0/Obligations.lean ====
section
/-!
DEFINITION. The statements for the provers: what the block's steps, commands and operations do, from the numbered rules of the spec.
-/
open Sys2Proof Sys2Proof.Machine

/-! ### The step and the queue -/

/-- A step takes the command at the front of the queue and is exec of it on the state with the queue's rest (the model's form of a
block; log entry 2). -/
def Obligations.StepRunsTheFrontCommand : Prop :=
  ∀ (s : State) (c : Instr) (rest : List Instr), s.pending = c :: rest → step s = exec c { s with pending := rest }

/-- No command stops the block, and none touches the queue of commands that wait: every command answers a next state with the queue
as it was. It is the form of the model: the queue is log entry 2, and that a command which finds nothing to do, or which its block cannot take
in its state, changes nothing rests on log entries 3 and 104. -/
def Obligations.CommandsProceedAndKeepTheQueue : Prop :=
  ∀ (c : Instr) (s : State), ∃ t, exec c s = .next t ∧ t.pending = s.pending

/-- Every step keeps every sparse map in canonical form, with its keys strictly rising and no listed default: the stack's bytes, its poisoned,
wrong and healed places, its refresh debts and times and its open rows; the NVM's bytes and pages, the firmware's image, AON SRAM, the Tray rings
and the wear accumulators; the Easels' buffers; the held registers, the counters with their live and hold copies, and the staged entries. -/
def Obligations.StepKeepsCanonicalMemories : Prop :=
  ∀ s t : State, s.canonical = true → step s = .next t → t.canonical = true

/-- Every step keeps the accounts of the queues of Contact (pools 41 and 42), of the transmit stamps (43) and of the event messages (44):
ISSUED - RETURNED is INFLIGHT, which is what the queue holds and at most its size; for 43 and 44 PRODUCED is ISSUED and DROPPED together. -/
def Obligations.StepKeepsTheQueuesAccounts : Prop :=
  ∀ s t : State, s.accounts → step s = .next t → t.accounts

/-! ### Trays and the firmware (chapter 15) -/

/-- Checks 1 to 6 of R381 in their order: the first that fails gives the reason. COMMAND_TAKEN takes the next entry of the oldest doorbell
from the clock after its arrival on: once no ABORTED response of a warm restart waits (R390), CMD_HEAD advances, and the command is taken, or
refused with the reason of its first failing check as its one response; nothing else changes (the order and the clock rest on log entry 67). -/
def Obligations.TakenCommandsAreCheckedAndTaken : Prop :=
  (∀ (s : State) (c : Cmd),
    (findCmd c.opcode = none → s.takeCheck c = 0x0101) ∧
    ∀ r, findCmd c.opcode = some r →
      (c.cls ≠ r.cls → s.takeCheck c = 0x0103) ∧
      (c.cls = r.cls →
        (¬ (r.lenMin ≤ c.len ∧ c.len ≤ r.lenMax ∧ countOk c = true) → s.takeCheck c = 0x0102) ∧
        (r.lenMin ≤ c.len ∧ c.len ≤ r.lenMax ∧ countOk c = true →
          (8 ≤ leAt c.entry 4 1 ∨ (c.queue ≠ 0 ∧ ¬ (c.opcode = 0x0501 ∧ c.queue = 1)) ∨ (c.target ≠ 0 ∧ r.cls ≠ 1) →
            s.takeCheck c = 0x010D) ∧
          (leAt c.entry 4 1 < 8 ∧ (c.queue = 0 ∨ (c.opcode = 0x0501 ∧ c.queue = 1)) ∧ (c.target = 0 ∨ r.cls = 1) →
            (r.t0 = true ∧ c.tray ≠ 0 → s.takeCheck c = 0x0104) ∧
            (r.t0 = false ∨ c.tray = 0 →
              s.takeCheck c = if r.allowed (modeCode s.pmu.mode) then 0 else 0x0109))))) ∧
  (∀ (s : State) (at_ : Nat) (k : Fin 8) (n : Nat) (rest : List (Nat × Nat × Nat)), s.dk.doorbells = (at_, k.val, n) :: rest →
    s.now ≤ at_ → exec .commandTaken s = .next s) ∧
  (∀ (s : State) (at_ : Nat) (k : Fin 8) (n : Nat) (rest : List (Nat × Nat × Nat)),
    s.dk.doorbells = (at_, k.val, n) :: rest → at_ < s.now → s.fw = true → s.abortsWritten = true →
    let c : Cmd := ⟨k, (s.tray k).cmdEntry (s.tray k).cmdHead, (s.tray k).cmdHead⟩
    ∃ u, exec .commandTaken s = .next u ∧
      u = { s with dk := u.dk, trays := u.trays } ∧
      u.dk = { s.dk with doorbells := u.dk.doorbells, taken := u.dk.taken } ∧
      u.dk.doorbells = (if n ≤ 1 then rest else (at_, k.val, n - 1) :: rest) ∧
      (∀ y, y ≠ k → u.tray y = s.tray y) ∧
      u.tray k = { s.tray k with cmdHead := ((s.tray k).cmdHead + 1) % 65536, held := (u.tray k).held } ∧
      (s.takeCheck c = 0 → u.dk.taken = s.dk.taken ++ [c] ∧ (u.tray k).held = (s.tray k).held) ∧
      (s.takeCheck c ≠ 0 → u.dk.taken = s.dk.taken ∧ (u.tray k).held = (s.tray k).held ++
        [⟨s.now, c.tag, c.opcode, 2, true, s.takeCheck c, List.replicate 24 0, c.index⟩]))

/-- RESPONSE_WRITE writes the oldest held response into a free entry, with PHASE = ((n >> 8) & 1) XOR 1, and then advances RESP_TAIL; with
no free entry it is held. Behind the DONE of an FW_UPDATE the warm restart starts. RESP_RING_FULL raises E33 once when a response has waited
100 microseconds for an entry; outside the event unit only the mark that it was raised changes. -/
def Obligations.ResponsesWaitForFreeEntries : Prop :=
  (∀ (s : State) (t : Fin 8) (r : Resp) (rest : List Resp), (s.tray t).held = r :: rest → s.fw = true →
    (256 ≤ idxSub (s.tray t).respTail (s.tray t).respHead → exec (.responseWrite t) s = .next s) ∧
    (idxSub (s.tray t).respTail (s.tray t).respHead < 256 →
      ∃ u, exec (.responseWrite t) s = .next u ∧
        u = { s with trays := u.trays, dk := u.dk } ∧ (∀ y, y ≠ t → u.tray y = s.tray y) ∧
        u.dk = (if r.opcode = 0x0006 ∧ r.status = 0 then { s.dk with restarting := some 0 } else s.dk) ∧
        u.tray t = { s.tray t with held := rest, respTail := ((s.tray t).respTail + 1) % 65536, respRing := (u.tray t).respRing } ∧
        (s.canonical = true → r.payload.length = 24 →
          let n := (s.tray t).respTail
          (u.tray t).respEntry n = leBytes 2 r.tag ++ leBytes 2 r.opcode ++ leBytes 1 r.status ++
            leBytes 1 ((n >>> 8 &&& 1 ^^^ 1) + 2 * (if r.final then 1 else 0)) ++ leBytes 2 r.reason ++ r.payload ∧
          ∀ m, m % 256 ≠ n % 256 → (u.tray t).respEntry m = (s.tray t).respEntry m))) ∧
  (∀ (s : State) (t : Fin 8) (r : Resp) (rest : List Resp), (s.tray t).held = r :: rest → s.fw = true →
    256 ≤ idxSub (s.tray t).respTail (s.tray t).respHead → r.at_ + 25000 ≤ s.now →
    ((s.tray t).fullRaised = true → exec (.respRingFull t) s = .next s) ∧
    ((s.tray t).fullRaised = false →
      ∃ u, exec (.respRingFull t) s = .next u ∧ (u.tray t).fullRaised = true ∧ (s.canonical = true → u.evStatus 33 = true) ∧
        EventEffect (s.setTray t { s.tray t with fullRaised := true }) u))

/-- The firmware's heartbeat, the watchdog and DK.RESTART (R389): the heartbeat advances every 100 microseconds; a stall raises E34
and starts a warm restart when AUTO is 1; 0x0000_A55A starts one at once, any other value nothing. -/
def Obligations.HeartbeatWatchdogAndRestartWrite : Prop :=
  (∀ s : State, s.fw = true → s.dk.lastBeat + 25000 ≤ s.now → s.canonical = true →
    ∃ t, exec .heartbeat s = .next t ∧ t.reg idHeartbeat = s.reg idHeartbeat + 1 ∧ t.dk = { s.dk with lastBeat := s.now } ∧
      (∀ id, id ≠ idHeartbeat → t.reg id = s.reg id) ∧
      t = { s with dk := t.dk, regs := { s.regs with held := t.regs.held } }) ∧
  (∀ s : State, s.up dCtrl = true → s.locked 1 = true → s.dk.running = true → s.dk.restarting = none → s.pmu.sleep = .awake →
    s.dk.lastBeat + 250000 * max 1 (s.rf idWdog 15 0) ≤ s.now → s.canonical = true →
    ∃ t, exec .fwStall s = .next t ∧ t.evStatus 34 = true ∧ EventEffect { s with dk := t.dk } t ∧
      t.dk = { s.dk with lastBeat := s.now, restarting := if bit (s.reg idWdog) 31 then some 1 else none }) ∧
  (∀ (s : State) (cause : Nat), s.dk.restarting = some cause → exec .fwStall s = .next s) ∧
  (∀ (s : State) (v : Word), s.up dCtrl = true →
    (v ≠ 0x0000A55A#32 → exec (.dkRestartWrite v) s = .next s) ∧
    (s.dk.running = true → s.dk.restarting = none →
      exec (.dkRestartWrite 0x0000A55A#32) s = .next { s with dk := { s.dk with restarting := some 0 } }) ∧
    (∀ cause, s.dk.restarting = some cause → exec (.dkRestartWrite v) s = .next s))

/-- NOP, IDENTIFY, TRAY_CONFIG and STAGE_CLEAR: what each answers and changes, once the firmware may start it. TICK_WAIT gives its interim
response and waits for its target, the next tick for the wild target; a target that has arrived or lies more than 65,536 ticks ahead
refuses it. -/
def Obligations.BasicCommandsAndTickWaitAnswer : Prop :=
  (∀ (s : State) (c : Cmd),
    (s.mayStart c 0x0001 = true → ∃ t, exec (.nop c) s = .next t ∧ Answered s t c 0 0 []) ∧
    (s.mayStart c 0x0002 = true → ∃ t p, exec (.identify c) s = .next t ∧ Answered s t c 0 0 p ∧
      p.take 4 = [0x59, 0x4E, 0x20, 0x97] ∧ byteAt p 4 = Config.stepping ∧ byteAt p 5 = Config.icsMinor ∧
      byteAt p 6 = Config.icsMajor ∧ (byteAt p 7).toNat = c.tray.val ∧ leAt p 8 4 = Config.fwVersion.toNat ∧
      leAt p 12 4 = Config.fwBuild.toNat ∧ (byteAt p 16).toNat = s.dk.owner.val) ∧
    (s.mayStart c 0x0005 = true →
      (8 ≤ c.arg 0 1 → ∃ t, exec (.trayConfig c) s = .next t ∧ Answered s t c 2 0x0108 []) ∧
      (c.arg 0 1 = s.dk.owner.val → ∃ t, exec (.trayConfig c) s = .next t ∧ Answered s t c 0 0 []) ∧
      (c.arg 0 1 < 8 → c.arg 0 1 ≠ s.dk.owner.val → ∃ t, exec (.trayConfig c) s = .next t ∧ t.dk.owner.val = c.arg 0 1 ∧
        Answered { s with dk := { s.dk with owner := t.dk.owner }, regs := { s.regs with staged := [] } } t c 0 0 [])) ∧
    (s.mayStart c 0x0203 = true →
      (c.tray ≠ s.dk.owner → ∃ t, exec (.stageClear c) s = .next t ∧ Answered s t c 2 0x0105 []) ∧
      (c.tray = s.dk.owner → ∃ t, exec (.stageClear c) s = .next t ∧
        Answered { s with regs := { s.regs with staged := [] } } t c 0 0 []))) ∧
  (∀ (s : State) (c : Cmd), s.mayStart c 0x0008 = true → s.expo.ticked = true →
    (c.target ≠ wildTarget → c.target ≤ s.expo.tick → ∃ t, exec (.tickWait c) s = .next t ∧ Answered s t c 2 0x010B []) ∧
    (c.target ≠ wildTarget → s.expo.tick + 65536 < c.target → ∃ t, exec (.tickWait c) s = .next t ∧ Answered s t c 2 0x0209 []) ∧
    (c.target = wildTarget ∨ (s.expo.tick < c.target ∧ c.target ≤ s.expo.tick + 65536) →
      ∃ t, exec (.tickWait c) s = .next t ∧ t = { s with dk := t.dk, trays := t.trays } ∧
        t.dk = { s.dk with started := s.dk.started ++ [c], tickWaits := s.dk.tickWaits ++
          [⟨c, if c.target = wildTarget then s.expo.tick + 1 else c.target⟩] } ∧
        t.tray c.tray = { s.tray c.tray with held := (s.tray c.tray).held ++
          [⟨s.now, c.tag, c.opcode, 1, false, 0, List.replicate 24 0, c.index⟩] } ∧
        ∀ y, y ≠ c.tray → t.tray y = s.tray y))

/-! ### The event unit (chapter 17) -/

/-- A pulse of a source that is not reserved: the first sets the status bit and loads the capture, and queues exactly one message of an
enabled source with HOST = 1 while pool 44 has room; a further one adds 1 to COUNT up to 255, changes nothing else of the source and queues
none; a reserved source's pulse changes nothing. With the pool full the message is dropped and counted, its LOST bit is set and E97 raised.
A write of EVU.STATUS_g clears the written bits and zeroes their COUNTs, and the captures keep their values; a pulse in the same clock
leaves its bit at 1 as a new first occurrence. -/
def Obligations.EventPulsesAndClearsFollowTheirRules : Prop :=
  (∀ (s : State) (p : Pulse), s.canonical = true →
    (severity? p.src = none → exec (.eventPulse p) s = .next s) ∧
    (severity? p.src ≠ none → s.up (srcDomain p.src) = true → s.up dCtrl = true → s.locked 1 = true →
      let sends := !s.evStatus p.src && s.evEnabled p.src && s.evHost p.src
      ∃ t, exec (.eventPulse p) s = .next t ∧ EventEffect s t ∧ t.evStatus p.src = true ∧
        (s.evStatus p.src = false → t.reg (idCap p.src 0) = p.lo ∧ t.reg (idCap p.src 1) = p.hi ∧
          t.reg (idCap p.src 2) = BitVec.ofNat 32 s.expo.tick ∧ t.reg (idCap p.src 3) = 1) ∧
        (s.evStatus p.src = true → (∀ k, k < 3 → t.reg (idCap p.src k) = s.reg (idCap p.src k)) ∧
          (t.reg (idCap p.src 3)).toNat = min 255 ((s.reg (idCap p.src 3)).toNat + 1)) ∧
        (s.evu.queue.length < 256 → t.evu.queue = s.evu.queue ++
          if sends then [⟨s.rf (idEvCfg p.src) 5 0, severity p.src, p.src⟩] else []) ∧
        (256 ≤ s.evu.queue.length → t.evu.queue = s.evu.queue ∧
          (sends = true → bit (t.reg (idEvLost (p.src.val / 32))) (p.src.val % 32) = true ∧ t.evStatus 97 = true ∧
            t.pool 44 = { s.pool 44 with produced := ((s.pool 44).produced + 1) % 2 ^ 64
                                         dropped := ((s.pool 44).dropped + 1) % 2 ^ 64 })))) ∧
  (∀ (s : State) (g : Fin 18) (mask : Word), s.canonical = true → s.evuOpen = true →
    (∃ t, exec (.eventStatusClear g mask []) s = .next t ∧ EventEffect s t ∧
      t.reg (idEvStatus g) = s.reg (idEvStatus g) &&& ~~~ mask ∧
      ∀ i : Fin 32, bit mask i = true → s.evStatus (32 * g + i) = true →
        t.reg (idCap (32 * g + i) 3) = 0 ∧ ∀ k, k < 3 → t.reg (idCap (32 * g + i) k) = s.reg (idCap (32 * g + i) k)) ∧
    ∀ p : Pulse, p.src.val / 32 = g → bit mask (p.src.val % 32) = true → severity? p.src ≠ none →
      s.up (srcDomain p.src) = true →
      ∃ t, exec (.eventStatusClear g mask [p]) s = .next t ∧ t.evStatus p.src = true ∧
        t.reg (idCap p.src 0) = p.lo ∧ t.reg (idCap p.src 1) = p.hi ∧ t.reg (idCap p.src 3) = 1)

/-- A write of EVU.ENABLE_g: a fatal source's bit reads 1 and ignores the write; each source that becomes pending with HOST = 1 queues
exactly one message with its vector, severity and E-number, in ascending order, while pool 44 has room; with the pool full every one is
dropped, its LOST bit is set and E97 raised. A write of EVU.CFG_n sets VEC, and HOST where it is not read-only (1 for a fatal source, 0 for
E97); its other fields stay; a source that becomes pending with the HOST that is set queues one message with its new VEC.
EVENT_MESSAGE_SEND: the head of the queue leaves as one EVENT message on UA, or on UB when only UB is up, for one VC3 credit, and its pool
entry returns. -/
def Obligations.EventWritesQueueMessagesThatLeaveInOrder : Prop :=
  (∀ (s : State) (g : Fin 18) (v : Word), s.canonical = true → s.evuOpen = true →
    let new := (List.range 32).filter fun i =>
      bit v i && !bit (s.reg (idEvEnable g)) i && !fatalSource (32 * g + i) && s.evStatus (32 * g + i) && s.evHost (32 * g + i)
    ∃ t, exec (.eventEnableWrite (idEvEnable g) v) s = .next t ∧ EventEffect s t ∧
      (∀ i : Fin 32, bit (t.reg (idEvEnable g)) i = (bit v i || fatalSource (32 * g + i))) ∧
      (s.evu.queue.length + new.length ≤ 256 → t.evu.queue = s.evu.queue ++
        new.map fun i => ⟨s.rf (idEvCfg (32 * g + i)) 5 0, severity (32 * g + i), 32 * g + i⟩) ∧
      (256 ≤ s.evu.queue.length → t.evu.queue = s.evu.queue ∧ (∀ i ∈ new, bit (t.reg (idEvLost g)) i = true) ∧
        (new ≠ [] → t.evStatus 97 = true))) ∧
  (∀ (s : State) (n : Fin 576) (v : Word), s.canonical = true → s.evuOpen = true →
    ∃ t, exec (.eventEnableWrite (idEvCfg n) v) s = .next t ∧ EventEffect s t ∧
      t.rf (idEvCfg n) 5 0 = fld v 5 0 ∧ t.rf (idEvCfg n) 31 7 = s.rf (idEvCfg n) 31 7 ∧
      bit (t.reg (idEvCfg n)) 6 = (if fatalSource n then true else if n.val = 97 then false else bit v 6) ∧
      (s.evu.queue.length < 256 → t.evu.queue = s.evu.queue ++
        if bit (t.reg (idEvCfg n)) 6 && !bit (s.reg (idEvCfg n)) 6 && s.evStatus n && s.evEnabled n then [⟨fld v 5 0, severity n, n⟩] else [])) ∧
  (∀ (s : State) (e : EvMsg) (rest : List EvMsg) (m : Fin 2), s.evu.queue = e :: rest → s.evuOpen = true →
    s.msgModule = some m → (s.ucie[m]).init = true → 0 < (s.ucie[m]).cr3 →
    ∃ t, exec .eventMessageSend s = .next t ∧
      t = { s with evu := t.evu, ucie := t.ucie, pools := t.pools } ∧ t.evu = { s.evu with queue := rest } ∧
      t.ucie[m] = { s.ucie[m] with
        cr3 := (s.ucie[m]).cr3 - 1, evSeq := ((s.ucie[m]).evSeq + 1) % 2 ^ 32
        sent := eventMsg e (s.ucie[m]).evSeq :: (s.ucie[m]).sent } ∧
      (∀ y : Fin 2, y ≠ m → t.ucie[y] = s.ucie[y]) ∧
      t.pool 44 = { s.pool 44 with returned := ((s.pool 44).returned + 1) % 2 ^ 64 } ∧ (∀ k, k ≠ 44 → t.pool k = s.pool k))

/-! ### Parameters and register writes (chapters 1, 2, 15, 16) -/

/-- PARAM_SET checks every entry before it applies any: with none failing all are applied in payload order and it is DONE; the first
failing entry refuses the whole command with its reason and index, and nothing is written. The reasons, in their order. After a PARAM_SET of held
registers without an effect of their own, with values in range, each RW field outside class T reads as written, each of class T reads as written
from the staging set while its value in force stays, and no other register changes. -/
def Obligations.ParamSetChecksBeforeItApplies : Prop :=
  (∀ (s : State) (c : Cmd), s.mayStart c 0x0102 = true →
    ((∀ e ∈ setEntries c, s.entryCheck c.tray e.1 e.2 = 0) →
      ∃ t, exec (.paramSet c) s = .next t ∧ Answered ((setEntries c).foldl (fun s e => s.applyEntries [e]) s) t c 0 0 []) ∧
    (∀ (i : Nat) (h : i < (setEntries c).length),
      (∀ j (hj : j < i), s.entryCheck c.tray ((setEntries c)[j]).1 ((setEntries c)[j]).2 = 0) →
      s.entryCheck c.tray ((setEntries c)[i]).1 ((setEntries c)[i]).2 ≠ 0 →
      ∃ t u, exec (.paramSet c) s = .next t ∧ EventEffect s u ∧
        (s.entryCheck c.tray ((setEntries c)[i]).1 ((setEntries c)[i]).2 ≠ 0x020F → u = s) ∧
        Answered u t c 2 (s.entryCheck c.tray ((setEntries c)[i]).1 ((setEntries c)[i]).2) (leBytes 4 i))) ∧
  (∀ (s : State) (t : Fin 8) (id : Nat) (v : Word), id / 1024 ≠ 0x3F →
    (findReg id = none → s.entryCheck t id v = 0x0106) ∧
    ∀ f, findReg id = some f →
      (f.upper = true ∨ f.d.writable = false → s.entryCheck t id v = 0x0107) ∧
      (f.upper = false → f.d.writable = true →
        (f.d.inRange v = false → statedRange f.d.base = false → s.entryCheck t id v = 0x0108) ∧
        (f.d.inRange v = true ∨ statedRange f.d.base = true →
          (f.d.clsMask .t ≠ 0 → t ≠ s.dk.owner → s.entryCheck t id v = 0x0105) ∧
          (f.d.clsMask .t = 0 ∨ t = s.dk.owner → s.entryCheck t id v =
            if s.ownerIdle f = false ∧ f.d.changedMask .s (s.reg f.lowId) v ≠ 0 then 0x020F else 0)))) ∧
  ∀ (s : State) (c : Cmd), s.canonical = true → s.mayStart c 0x0102 = true →
    ((setEntries c).map Prod.fst).Nodup → (∀ e ∈ setEntries c, s.entryCheck c.tray e.1 e.2 = 0) →
    (∀ e ∈ setEntries c, ∃ f, findReg e.1 = some f ∧ f.d.kind = .held ∧ f.upper = false ∧ f.lowId = e.1 ∧
      f.d.base ∉ [0x0402, 0x500A, 0x7400, 0x7401, 0x7500, idProtect, idRestart, idTickCtrl, idTimeCfg, 0x6420, idRfcCtrl, idRasterSize, idPtpCfg] ∧
      f.d.badMask (narrowed f.d.base e.2) ||| relMask f.d.base (narrowed f.d.base e.2) = 0 ∧
      (s.ownerIdle f = true ∨ f.d.changedMask .s (s.reg e.1) (narrowed f.d.base e.2) = 0)) →
    ∃ t, exec (.paramSet c) s = .next t ∧ (∀ id, id ∉ (setEntries c).map Prod.fst → t.reg id = s.reg id) ∧
      ∀ e ∈ setEntries c, ∀ f, findReg e.1 = some f → ∀ i : Fin 32,
        bit (f.d.accMask fun a => a = .rw) i = true → bit (f.d.accMask fun a => a = .w1c) i = false →
        (bit (f.d.clsMask .t) i = false → bit (t.reg e.1) i = bit (narrowed f.d.base e.2) i) ∧
        (bit (f.d.clsMask .t) i = true → bit (t.reg e.1) i = bit (s.reg e.1) i ∧
          bit (t.getStaged f false) i = bit (narrowed f.d.base e.2) i)

/-- REGISTER_WRITE of a held register without fields of class T and without an effect of its own, whose value breaks no range and
changes no class S field of a running block: each RW bit takes the written bit, each W1C bit is cleared by a 1 unless hardware sets it
in the same clock, every other bit keeps its value, and no other register changes. -/
def Obligations.RegisterWriteFollowsAccessCodes : Prop :=
  ∀ (s : State) (id : Nat) (f : Found) (v hw : Word), s.canonical = true → s.up dCtrl = true →
    findReg id = some f → f.d.kind = .held → f.upper = false → f.lowId = id → f.d.clsMask .t = 0 →
    f.d.base ∉ [0x0402, 0x500A, 0x7400, 0x7401, 0x7500, idProtect, idRestart, idTickCtrl, idTimeCfg, 0x6420, idRfcCtrl, idRasterSize] →
    f.d.badMask v ||| relMask f.d.base v = 0 → (s.ownerIdle f = true ∨ f.d.changedMask .s (s.reg id) v = 0) →
    let rw := f.d.accMask fun a => a = .rw
    let w1c := f.d.accMask fun a => a = .w1c
    ∃ t, exec (.registerWrite id v hw) s = .next t ∧ t = { s with regs := { s.regs with held := t.regs.held } } ∧
      (∀ j, j ≠ id → t.reg j = s.reg j) ∧
      ∀ i : Fin 32,
        (bit rw i = true → bit w1c i = false → bit (t.reg id) i = bit v i) ∧
        (bit rw i = false → bit w1c i = true → bit (t.reg id) i = (bit hw i || (bit (s.reg id) i && !bit v i))) ∧
        (bit rw i = false → bit w1c i = false → bit (t.reg id) i = bit (s.reg id) i)

/-- A value out of a field's range has no effect and raises E4, and a write that would change a class S field while the owning block
runs leaves that field alone and raises E4; a class T field enters the staging set, a coefficient of CORR.MATRIX sign-extended from its 15
bits, and its value in force stays. -/
def Obligations.SettingsAreRefusedOrStaged : Prop :=
  ∀ (s : State) (id : Nat) (f : Found) (v : Word), s.canonical = true → s.up dCtrl = true → s.locked 1 = true →
    findReg id = some f → f.d.kind = .held → f.upper = false → f.lowId = id →
    f.d.base ∉ [0x0402, 0x500A, 0x7400, 0x7401, 0x7500, idProtect, idRestart, idTickCtrl, idTimeCfg, 0x6420, idRfcCtrl, idRasterSize] →
    let bad := f.d.badMask v ||| relMask f.d.base v
    let sch := f.d.changedMask .s (s.reg id) v
    (bad ≠ 0 → ∃ t, exec (.registerWrite id v 0) s = .next t ∧ EventEffect s t ∧ t.evStatus 4 = true) ∧
    (bad = 0 → s.ownerIdle f = false → sch ≠ 0 →
      ∃ t, exec (.registerWrite id v 0) s = .next t ∧ t.evStatus 4 = true ∧ t.reg id &&& sch = s.reg id &&& sch) ∧
    (bad = 0 → f.d.clsMask .t ≠ 0 →
      let m := f.d.clsMask .t &&& f.d.accMask fun a => a = .rw
      ∃ t, exec (.registerWrite id v 0) s = .next t ∧ t.reg id &&& m = s.reg id &&& m ∧
        t.stagedWord id &&& m = narrowed f.d.base v &&& m)

/-- PARAM_GET answers the value of each ID in payload order, in force or, with STAGED = 1, the class T fields of held registers as staged,
and refuses an unknown one; PARAM_INFO answers, or refuses an unknown ID, with NEXT, the next ID that the catalogue holds; reading the lower
word of a counter holds its upper word for the next read. PARAM_SAVE submits 255 data pages and last the header of the older bank;
PARAM_DEFAULTS writes the reset value of every RW field of the selected groups after checking all of them. Either refuses a mask that
selects a reserved group. -/
def Obligations.ParametersAreReadSavedAndRestored : Prop :=
  ((∀ (s : State) (c : Cmd), s.mayStart c 0x0101 = true →
    let ids := (List.range (c.arg 0 1)).map fun n => c.arg (2 + 2 * n) 2
    (∀ id ∈ ids, id / 1024 ≠ 0x3F) →
    ((∃ id ∈ ids, findReg id = none) → ∃ t, exec (.paramGet c) s = .next t ∧ Answered s t c 2 0x0106 []) ∧
    ((∀ id ∈ ids, ∃ f, findReg id = some f) →
      ∃ t u p, exec (.paramGet c) s = .next t ∧ u = { s with regs := { s.regs with hold := u.regs.hold } } ∧ Answered u t c 0 0 p ∧
        ∀ (n : Nat) (f : Found), n < c.arg 0 1 → findReg (c.arg (2 + 2 * n) 2) = some f →
          leAt p (4 * n) 4 =
            ((if (c.arg 0x0E 1).testBit 0 then s.getStaged f else s.readWord f) (ids.contains f.lowId)).toNat)) ∧
  (∀ (s : State) (f : Found) (pair : Bool) (i : Fin 32), bit (s.getStaged f pair) i =
    if f.upper = false ∧ f.d.kind = .held ∧ bit (f.d.clsMask .t) i = true then bit (s.stagedWord f.lowId) i else bit (s.readWord f pair) i) ∧
  (∀ (s : State) (c : Cmd), s.mayStart c 0x0103 = true → c.arg 0 2 < 0x8800 →
    ∃ t p, exec (.paramInfo c) s = .next t ∧
      (findReg (c.arg 0 2) = none → Answered s t c 2 0x0106 p) ∧
      (∀ f, findReg (c.arg 0 2) = some f → Answered s t c 0 0 p ∧ leAt p 4 4 = (paramRange f.d).1 % 2 ^ 32 ∧
        leAt p 8 4 = (paramRange f.d).2 % 2 ^ 32) ∧
      ((∃ j, c.arg 0 2 < j ∧ j ≤ 0x8800 ∧ leAt p 0 2 = j ∧ (findReg j).isSome = true ∧ ∀ i, c.arg 0 2 < i → i < j → findReg i = none) ∨
       (leAt p 0 2 = 0xFFFF ∧ ∀ i, c.arg 0 2 < i → i ≤ 0x8800 → findReg i = none))) ∧
  (∀ (s : State) (id : Nat) (f : Found), s.canonical = true → findReg id = some f → f.d.kind = .count → f.upper = false →
    ∃ t, exec (.counterLoRead id) s = .next t ∧ t = { s with regs := { s.regs with hold := t.regs.hold } } ∧
      t.readWord { f with upper := true } false = hiWord (s.ctr f.lowId))) ∧
  (∀ (s : State) (c : Cmd),
    (s.mayStart c 0x0104 = true →
      (reservedGroup (c.arg 0 8) = true → ∃ t, exec (.paramSave c) s = .next t ∧ Answered s t c 2 0x0108 []) ∧
      (reservedGroup (c.arg 0 8) = false → (s.saveEntries (c.arg 0 8)).length ≤ 2040 → s.rf idProtect 1 0 = 0 → s.pmu.tripped = false →
        let w := olderCopy (s.bankSeq 0) (s.bankSeq 1)
        ∃ t js j, exec (.paramSave c) s = .next t ∧ t = { s with nvm := t.nvm, dk := { s.dk with started := s.dk.started ++ [c] } } ∧
          t.nvm.jobs = s.nvm.jobs ++ js ++ [j] ∧ js.length = 255 ∧ j.page = bankHeader w.1 ∧ j.use = .save c ∧
          leAt j.bytes 0 4 = w.2 % 2 ^ 32 ∧ leAt j.bytes 4 4 = (crc32 (js.flatMap fun x => x.bytes)).toNat)) ∧
    (s.mayStart c 0x0105 = true →
      let l := (groupRw (c.arg 0 8)).map fun e => (e.1, resetWord e.1 &&& e.2.accMask fun a => a = .rw)
      (reservedGroup (c.arg 0 8) = true → ∃ t, exec (.paramDefaults c) s = .next t ∧ Answered s t c 2 0x0108 []) ∧
      (reservedGroup (c.arg 0 8) = false → (∀ e ∈ l, s.entryCheck c.tray e.1 e.2 true = 0) →
        ∃ t, exec (.paramDefaults c) s = .next t ∧ Answered (s.applyEntries l true) t c 0 0 [])))

/-! ### UCIe and the Ihlian Streaming Transactions (chapter 14), doorbells (R377), the Ledger (chapter 13) -/

/-- A DOORBELL message applies RESP_HEAD and then CMD_TAIL, or is discarded whole with DB_ERR and E32 when either step is invalid. What it
announces waits behind the doorbells that arrived before it, and before those of this clock for higher Trays (R391); the Tray's account moves
with the slots returned and taken. -/
def Obligations.DoorbellAppliesBothStepsOrNone : Prop :=
  ∀ (s : State) (x : Ist), Accepts s x → istType x = 4 → s.up dCtrl = true → s.locked 1 = true → s.canonical = true →
    let k : Fin 8 := Fin.ofNat 8 (x.h 8 1)
    let y := s.tray k
    let v : Word := BitVec.ofNat 32 (x.h 0xC 4)
    let h := (fld v 31 16 + 65536 - y.respHead) % 65536
    let n := (fld v 15 0 + 65536 - y.cmdTail) % 65536
    let back := y.finals y.respHead h
    let infl := s.traySlots k
    let p := s.pool (10 + k.val)
    ∃ t, exec (.doorbell x) s = .next t ∧ (∀ z, z ≠ k → t.tray z = s.tray z) ∧
      (h ≤ (y.respTail + 65536 - y.respHead) % 65536 ∧ n ≤ 256 - (infl - back) →
        (t.tray k).respHead = fld v 31 16 ∧ (t.tray k).cmdTail = fld v 15 0 ∧ (t.tray k).dbErr = y.dbErr ∧
        t.pool (10 + k.val) = { p with returned := (p.returned + back) % 2 ^ 64, issued := (p.issued + n) % 2 ^ 64 } ∧
        (y.respHead < 65536 → y.respTail < 65536 → t.traySlots k = infl - back + n) ∧
        t.dk = { s.dk with doorbells := t.dk.doorbells } ∧ (n = 0 → t.dk = s.dk) ∧
        (n ≠ 0 → ∃ l r, s.dk.doorbells = l ++ r ∧ t.dk.doorbells = l ++ (s.now, k.val, n) :: r ∧
          (∀ d ∈ l, d.1 = s.now → d.2.1 ≤ k.val) ∧ ∀ d ∈ r.head?, d.1 = s.now ∧ k.val < d.2.1) ∧
        t = { s with dk := t.dk, trays := t.trays, pools := t.pools, ucie := t.ucie }) ∧
      (¬ (h ≤ (y.respTail + 65536 - y.respHead) % 65536 ∧ n ≤ 256 - (infl - back)) →
        t.tray k = { y with dbErr := true } ∧ t.dk = s.dk ∧ t.pool (10 + k.val) = p ∧ t.evStatus 32 = true ∧
        (s.evStatus 32 = false → t.reg (idCap 32 0) = BitVec.ofNat 32 k.val ∧ t.reg (idCap 32 1) = v))

/-- A posted write into the host area in FLAT, FIELD or SERVICE stores its bytes and no other, once its class BE tokens are free; until then
it waits with its receive slots. One into a command ring stores its word; one to an unmapped word or outside these modes is dropped, counted
in UR and raises UNSUPPORTED; a malformed one is discarded, counted and captured, and raises MALFORMED. -/
def Obligations.PostedWritesStoreOrAreDropped : Prop :=
  ∀ (s : State) (x : Ist), s.canonical = true → s.up dCtrl = true → s.locked 1 = true → s.pmu.sleep ≠ .resting →
    (s.ucie[x.m]).link = .up → s.up (dUa + x.m.val) = true →
    (Accepts s x → istType x = 1 → x.data.length = istLen x →
      (istSpace x = 1 → s.active = true → inHost (istAddr x) (istLen x) = true → s.room .host (istAddr x) (istLen x) = false →
        ∃ t, exec (.pwr x) s = .next t ∧ t = { (s.issue (vcPool x.m 0) (istSlots x)) with ucie := t.ucie } ∧
          t.ucie[x.m] = { s.ucie[x.m] with waiting := [(x, true)] }) ∧
      (istSpace x = 1 → s.active = true → inHost (istAddr x) (istLen x) = true → s.room .host (istAddr x) (istLen x) = true →
        ∃ t, exec (.pwr x) s = .next t ∧ DramEffect (({ s with ucie := t.ucie }).issue (vcPool x.m 0) (istSlots x)) t ∧
          (∀ (i : Nat) (h : i < x.data.length), t.dramByte (istAddr x + i) = x.data[i]) ∧
          (∀ a, a < istAddr x ∨ istAddr x + istLen x ≤ a → t.dramByte a = s.dramByte a) ∧
          (t.ucie[x.m]).freed = (s.ucie[x.m]).freed.set 0 ((s.ucie[x.m]).freed[0] + istSlots x)) ∧
      (istSpace x = 1 → s.active = false →
        ∃ t, exec (.pwr x) s = .next t ∧ t.evStatus (72 + x.m.val) = true ∧
          EventEffect ((({ s with ucie := t.ucie }).issue (vcPool x.m 0) (istSlots x)).addCtr (idUr x.m.val) 1) t) ∧
      (istSpace x = 0 → (∃ w ∈ s.ctlWords (istAddr x) (istLen x), w = .unmapped) →
        ∃ t, exec (.pwr x) s = .next t ∧ t.evStatus (72 + x.m.val) = true ∧
          EventEffect ((({ s with ucie := t.ucie }).issue (vcPool x.m 0) (istSlots x)).addCtr (idUr x.m.val) 1) t) ∧
      (∀ (k : Fin 8) (off : Nat), istSpace x = 0 → istLen x = 4 → s.ctlWord (istAddr x) = .tray k off → off < 0x4000 →
        ∃ t, exec (.pwr x) s = .next t ∧ t = { s with trays := t.trays, ucie := t.ucie, pools := t.pools } ∧
          (∀ (i : Nat) (h : i < x.data.length), t.trayByte k (off + i) = x.data[i]) ∧
          ∀ z, z ≠ k → t.tray z = s.tray z)) ∧
    (∀ cause, s.malformed x = cause → cause ≠ 0 → cause ≠ 6 →
      ∃ t, exec (.pwr x) s = .next t ∧ t.evStatus (70 + x.m.val) = true ∧ t.ctr (idMalformed x.m.val) = (s.ctr (idMalformed x.m.val) + 1) % 2 ^ 64 ∧
        (∀ i, i < 4 → t.reg (idErrHdr x.m.val i) = BitVec.ofNat 32 (x.h (4 * i) 4)) ∧
        t = { s with regs := t.regs, evu := t.evu, pools := t.pools, nvm := t.nvm, cnt := t.cnt, ucie := t.ucie })

/-- An accepted read is answered with one completion that carries its tag and all its bytes or none, and the tag is free again once the
completion has been sent: SC with the words of the control window, each as it reads behind those before it; SC with the bytes of the host area,
and CA with zeros where uncorrectable data is touched; SC with the raw bytes of a plate's block, behind what its Fixer holds, and CA with zeros
and the Developer's event where it cannot be delivered; UR with no bytes for an unmapped word, an address in no plane, and the DRAM window
outside FLAT, FIELD and SERVICE. A read of the DRAM window waits for its tokens. -/
def Obligations.ReadsGetOneCompletion : Prop :=
  ∀ (s : State) (x : Ist), Accepts s x → istType x = 2 → s.canonical = true → s.up dCtrl = true → s.locked 1 = true →
    (s.ucie[x.m]).init = true → (s.ucie[x.m]).cpls = [] → 1 + ceilDiv (istLen x) 16 ≤ (s.ucie[x.m]).cr2 →
    let ws := s.ctlWords (istAddr x) (istLen x)
    let addr (pl : Plane) (blk : Nat) := pl.addr + 512 * blk
    let found (pl : Plane) (blk : Nat) := s.forwarded (addr pl blk) (s.readPlane pl blk)
    (s.readReady x = false → ∃ t, exec (.rd x) s = .next t ∧
      t = { ((s.issue (vcPool x.m 1) 1).issue (8 + x.m.val) 1) with ucie := t.ucie } ∧
      t.ucie[x.m] = { s.ucie[x.m] with tags := istTag x :: (s.ucie[x.m]).tags, waiting := [(x, true)] }) ∧
    (istSpace x = 0 → (∀ w ∈ ws, w ≠ .unmapped) →
      ∃ t data, exec (.rd x) s = .next t ∧ (t.ucie[x.m]).sent = cplBytes ⟨istTag x, 0, data⟩ :: (s.ucie[x.m]).sent ∧
        data.length = istLen x ∧
        (∀ (i : Nat) (h : i < ws.length), leAt data (4 * i) 4 = (((ws.take i).foldl State.readCtlEffect s).readCtl ws[i]).toNat) ∧
        t = { s with regs := { s.regs with hold := t.regs.hold }, time := { s.time with holds := t.time.holds }
                     pools := t.pools, ucie := t.ucie }) ∧
    (istSpace x = 0 → (∃ w ∈ ws, w = .unmapped) →
      ∃ t, exec (.rd x) s = .next t ∧ (t.ucie[x.m]).sent = cplBytes ⟨istTag x, 1, []⟩ :: (s.ucie[x.m]).sent ∧
        t.ctr (idUr x.m.val) = (s.ctr (idUr x.m.val) + 1) % 2 ^ 64 ∧ t.evStatus (72 + x.m.val) = true) ∧
    (istSpace x = 1 → s.active = true → inHost (istAddr x) (istLen x) = false → s.readReady x = true →
      (∀ p i pl blk off, s.owner? (istAddr x) = some (p, i) → (s.buf p i).locate (istAddr x) = some (pl, blk, off) →
        ∃ t, exec (.rd x) s = .next t ∧ (∀ a, t.dramByte a = s.dramByte a) ∧ t.plates = s.plates ∧ t.trays = s.trays ∧ t.dk = s.dk ∧
          (∀ b, found pl blk = .bytes b →
            (t.ucie[x.m]).sent = cplBytes ⟨istTag x, 0, (b.drop off).take (istLen x)⟩ :: (s.ucie[x.m]).sent) ∧
          ((∀ b, found pl blk ≠ .bytes b) →
            (t.ucie[x.m]).sent = cplBytes ⟨istTag x, 2, List.replicate (istLen x) 0⟩ :: (s.ucie[x.m]).sent ∧
            (s.up dFab = true → t.evStatus (if found pl blk = .invalid then 321 else 322) = true))) ∧
      (s.owner? (istAddr x) = none ∨ (∃ p i, s.owner? (istAddr x) = some (p, i) ∧ (s.buf p i).locate (istAddr x) = none) →
        ∃ t, exec (.rd x) s = .next t ∧ (t.ucie[x.m]).sent = cplBytes ⟨istTag x, 1, []⟩ :: (s.ucie[x.m]).sent ∧
          t.ctr (idUr x.m.val) = (s.ctr (idUr x.m.val) + 1) % 2 ^ 64 ∧ t.evStatus (72 + x.m.val) = true)) ∧
    (istSpace x = 1 → s.active = true → inHost (istAddr x) (istLen x) = true → s.readReady x = true →
      let c : Cpl := if s.clean (istAddr x) (istLen x) then ⟨istTag x, 0, s.dramRead (istAddr x) (istLen x)⟩
        else ⟨istTag x, 2, List.replicate (istLen x) 0⟩
      ∃ t, exec (.rd x) s = .next t ∧
        DramEffect (((({ s with ucie := t.ucie }).issue (vcPool x.m 1) 1).issue (8 + x.m.val) 1).giveBack (8 + x.m.val) 1) t ∧
        (t.ucie[x.m]).sent = cplBytes c :: (s.ucie[x.m]).sent ∧ (t.ucie[x.m]).cpls = [] ∧
        (t.ucie[x.m]).tags = (s.ucie[x.m]).tags ∧ (t.ucie[x.m]).cr2 = (s.ucie[x.m]).cr2 - (1 + ceilDiv (istLen x) 16) ∧
        (t.pool (8 + x.m.val)).flight = (s.pool (8 + x.m.val)).flight) ∧
    (istSpace x = 1 → s.active = false →
      ∃ t, exec (.rd x) s = .next t ∧ (t.ucie[x.m]).sent = cplBytes ⟨istTag x, 1, []⟩ :: (s.ucie[x.m]).sent ∧
        t.ctr (idUr x.m.val) = (s.ctr (idUr x.m.val) + 1) % 2 ^ 64 ∧ t.evStatus (72 + x.m.val) = true ∧
        t = { s with regs := t.regs, evu := t.evu, pools := t.pools, nvm := t.nvm, cnt := t.cnt, ucie := t.ucie })

/-- CRET, the YL9720's own credit return, a retrain and a replayed flit: the host's counts add to the credits held, the freed slots go
back to the host and leave their pools, and RETRAINS and REPLAYS count. Training that settles on a supported rate at full width brings the
module UP with its pools restarted and the YL9720's advertisement sent first; an unsupported rate or width, or too small an advertisement
of the host, leaves it DOWN with LINK_DOWN; going DOWN, from training too, discards the reads and frees their tags and receive slots, and keeps
the posted writes. -/
def Obligations.LinksGoUpAndDownAndCreditsReturn : Prop :=
  ((∀ (s : State) (x : Ist), Accepts s x → istType x = 5 → x.h 1 1 < 2 → (s.ucie[x.m]).cpls = [] →
    ∃ t, exec (.cret x) s = .next t ∧ t = { s with ucie := t.ucie } ∧
      t.ucie[x.m] = { s.ucie[x.m] with cr2 := (s.ucie[x.m]).cr2 + x.h 0xC 2, cr3 := (s.ucie[x.m]).cr3 + x.h 0xE 2 }) ∧
  (∀ (s : State) (x : Ist), Accepts s x → istType x = 5 → 2 ≤ x.h 1 1 → 17 ≤ x.h 0xC 2 → 1 ≤ x.h 0xE 2 →
    ∃ t, exec (.cret x) s = .next t ∧ t = { s with ucie := t.ucie } ∧ (t.ucie[x.m]).init = true ∧
      (t.ucie[x.m]).cr2 = x.h 0xC 2 ∧ (t.ucie[x.m]).cr3 = x.h 0xE 2 ∧ (t.ucie[x.m]).adv2 = x.h 0xC 2 ∧ (t.ucie[x.m]).adv3 = x.h 0xE 2) ∧
  (∀ (s : State) (m : Fin 2), (s.ucie[m]).link = .up → (s.ucie[m]).freed ≠ Vector.replicate 4 0 →
    ∃ t, exec (.ucieCreditReturn m) s = .next t ∧ t = { s with ucie := t.ucie, pools := t.pools } ∧
      t.ucie[m] = { s.ucie[m] with freed := Vector.replicate 4 0, sent := cretBytes (s.ucie[m]).freed :: (s.ucie[m]).sent } ∧
      (∀ v : Fin 4, t.pool (vcPool m v.val) = { s.pool (vcPool m v.val) with
        returned := ((s.pool (vcPool m v.val)).returned + (s.ucie[m]).freed[v]) % 2 ^ 64 }) ∧
      (∀ k, k / 4 ≠ m.val → t.pool k = s.pool k)) ∧
  (∀ (s : State) (m : Fin 2), (s.ucie[m]).link = .up →
    (∃ t, exec (.ucieRetrain m) s = .next t ∧ EventEffect (s.addCtr (idRetrains m.val) 1) t ∧
      (s.canonical = true → s.up dCtrl = true → s.locked 1 = true → s.up (dUa + m.val) = true → t.evStatus (68 + m.val) = true)) ∧
    ∃ t, exec (.flitCrcFail m) s = .next t ∧ t = s.addCtr (idReplays m.val) 1)) ∧
  ((∀ (s : State) (m : Fin 2) (rate vc2 vc3 : Nat) (repaired reduced : Bool), s.canonical = true → s.up dCtrl = true →
    s.locked 1 = true →
    s.up (dUa + m.val) = true → (s.ucie[m]).link = .down → s.locked (15 + m.val) = true →
    (m = 0 ∨ (s.ucie[m]).configured = true ∨ s.now ≤ s.pmu.uaActiveAt + 2500000) →
    (s.ucie[(1 - m : Fin 2)]).link = .down → s.pmu.boot ≠ .supplies →
    (2 < rate ∨ reduced = true → ∃ t, exec (.ucieLinkUp m rate repaired reduced vc2 vc3) s = .next t ∧
      (t.ucie[m]).link = .down ∧ t.evStatus (66 + m.val) = true ∧ EventEffect { s with ucie := t.ucie } t) ∧
    (rate ≤ 2 → reduced = false → 17 ≤ vc2 → 1 ≤ vc3 → ∃ t, exec (.ucieLinkUp m rate repaired reduced vc2 vc3) s = .next t ∧
      t.evStatus (64 + m.val) = true ∧ (∀ k ∈ linkPools m, t.pool k = Pool.reset) ∧
      (t.ucie[m]).link = .up ∧ (t.ucie[m]).rate = rate ∧ (t.ucie[m]).repaired = repaired ∧ (t.ucie[m]).configured = true ∧
      (t.ucie[m]).init = true ∧ (t.ucie[m]).cr2 = vc2 ∧ (t.ucie[m]).cr3 = vc3 ∧ (t.ucie[m]).tags = [] ∧
      (t.ucie[m]).waiting = (s.ucie[m]).waiting.map (fun w => (w.1, false)) ∧
      (t.ucie[m]).sent = initCret :: (s.ucie[m]).sent ∧ t.dk = s.dk ∧ t.pmu = s.pmu ∧ t.dmc = s.dmc) ∧
    (rate ≤ 2 → reduced = false → vc2 < 17 ∨ vc3 = 0 → ∃ t, exec (.ucieLinkUp m rate repaired reduced vc2 vc3) s = .next t ∧
      (t.ucie[m]).link = .down ∧ t.evStatus (66 + m.val) = true)) ∧
  ∀ (s : State) (m : Fin 2), (s.ucie[m]).link ≠ .down →
    ∃ t, exec (.ucieLinkDown m) s = .next t ∧
      EventEffect (({ s with ucie := t.ucie }).giveBack (8 + m.val) (s.ucie[m]).tags.length) t ∧
      (∀ z : Fin 2, z ≠ m → t.ucie[z] = s.ucie[z]) ∧ (t.ucie[m]).link = .down ∧ (t.ucie[m]).tags = [] ∧ (t.ucie[m]).cpls = [] ∧
      (t.ucie[m]).waiting = (s.ucie[m]).waiting.filter (fun w => istType w.1 ≠ 2) ∧
      (t.ucie[m]).freed = (s.ucie[m]).freed.set 1
        ((s.ucie[m]).freed[1] + ((s.ucie[m]).waiting.filter fun w => istType w.1 = 2 ∧ w.2 = true).length) ∧
      (s.canonical = true → s.up dCtrl = true → s.locked 1 = true → s.up (dUa + m.val) = true → t.evStatus (66 + m.val) = true))

/-- A check strobe runs every slice whose home domain is powered and clocked: it latches the sampled values, and a pool that breaks a
condition of R338 gets its fault bit and E96; the pool itself keeps operating. -/
def Obligations.LedgerChecksEveryRunningSlice : Prop :=
  ∀ s : State, s.canonical = true → s.timeRuns = true → s.run = false → s.tick.strobesRun < (s.time.edges - s.tick.gridFrom) / 2 ^ 20 →
    ∃ t, exec .ledgerCheckStrobe s = .next t ∧ (∀ k, k ≠ 44 → t.pool k = s.pool k) ∧
      t.tick = { s.tick with strobesRun := (s.time.edges - s.tick.gridFrom) / 2 ^ 20 } ∧
      t = { s with tick := t.tick, regs := t.regs, evu := t.evu, pools := t.pools, nvm := t.nvm, cnt := t.cnt } ∧
      ∀ k, k < 45 → s.sliceRuns k = true →
        (t.reg (idLedInflight k)).toNat = min 65535 (s.occupancy k) ∧
        (t.poolFaulty k = true ↔ s.poolFaulty k = true ∨
          ((s.pool k).issued + 2 ^ 64 - (s.pool k).returned) % 2 ^ 64 ≠ s.occupancy k % 2 ^ 64 ∨
          (∃ n, poolSize k = some n ∧ n < s.occupancy k) ∨
          ((k = 43 ∨ k = 44) ∧ (s.pool k).produced ≠ ((s.pool k).issued + (s.pool k).dropped) % 2 ^ 64)) ∧
        (t.poolFaulty k = true → s.poolFaulty k = false → s.up dFab = true → s.up dCtrl = true → s.locked 1 = true → t.evStatus 96 = true)

/-! ### Time, ticks, timed outputs and the PTP port (chapters 2, 18) -/

/-- A tick fires when B + I(t) is defined and greater than the last index, with that index; the first tick after RUN was set is no
jump; a later jump counts the skipped indices in SKIPPED and raises E512. The tick takes with it what its edge decides of the Refocus
tables. -/
def Obligations.TicksFireInIndexOrder : Prop :=
  ∀ s : State, s.timeRuns = true → s.run = true →
    (s.tickIndex = none → exec .tickFire s = .next s) ∧
    ∀ k, s.tickIndex = some k →
      (∀ l, s.tick.last = some l → k ≤ l → exec .tickFire s = .next s) ∧
      (s.tick.last = none ∨ (∃ l, s.tick.last = some l ∧ l < k ∧ (s.tick.first = true ∨ k = l + 1)) →
        ∃ t, exec .tickFire s = .next t ∧ t = { s with tick := t.tick, time := t.time } ∧ t.tick.last = some k ∧
          t.tick.first = false ∧ t.tick.stretched = false ∧
          t.tick.toArrive = s.tick.toArrive ++ [⟨k, if s.tick.stretched then 1 else 0, wOf s.tickTime, s.rfcSwap, s.rfcLate⟩]) ∧
      (∀ l, s.tick.last = some l → l + 1 < k → s.tick.first = false → s.canonical = true →
        ∃ t, exec .tickFire s = .next t ∧ t.tick.last = some k ∧ t.ctr idSkipped = (s.ctr idSkipped + (k - l - 1)) % 2 ^ 64 ∧
          t.tick.toArrive = s.tick.toArrive ++ [⟨k, k - l - 1 + (if s.tick.stretched then 1 else 0), wOf s.tickTime, s.rfcSwap, s.rfcLate⟩] ∧
          (s.up dCtrl = true → s.locked 1 = true → t.evStatus 512 = true) ∧
          EventEffect { s.addCtr idSkipped (k - l - 1) with tick := t.tick, time := t.time } t)

/-- Setting RUN with a rate outside 48 to 240 Hz, a zero field, or WALL without a wall member under UNIFIED is refused with E4; with
WALL = 0 it captures EPOCH from the tick view and continues the numbering after the last tick, and with WALL = 1 in a wall member EPOCH stays
and the numbering starts at 0; clearing RUN ends the ticks, and check strobes begin at the next point of their grid. Your write of RUN holds an
update by hardware in the same clock off to the next. -/
def Obligations.RunStartsAndStopsTheTicks : Prop :=
  ∀ s : State, s.up dTime = true → s.canonical = true →
    let mine (k : TickGen) : TickGen :=
      { k with hostRunAt := some s.now, runLate := s.tick.runLate || (s.tick.hwRunAt == some s.now) }
    (s.run = false → s.up dCtrl = true → s.locked 1 = true →
      (s.rateNum = 0 ∨ s.rateDen = 0 ∨ s.rateNum < 48 * s.rateDen ∨ 240 * s.rateDen < s.rateNum ∨
        (bit (s.reg idTickCtrl) 1 = true ∧ (s.unified = false ∨ bit (s.reg idTimeCfg) 1 = false)) →
        ∃ t, exec .tickRunSet s = .next t ∧ t.run = false ∧ t.evStatus 4 = true ∧ t.tick = mine s.tick ∧
          EventEffect { s with tick := t.tick } t)) ∧
    (s.run = false → 0 < s.rateNum → 0 < s.rateDen → 48 * s.rateDen ≤ s.rateNum → s.rateNum ≤ 240 * s.rateDen →
      bit (s.reg idTickCtrl) 1 = false → 0 ≤ s.tickTime → s.tickTime < 2 ^ 48 * 1000000000 * 2 ^ 30 →
      ∃ t, exec .tickRunSet s = .next t ∧ t.run = true ∧ t.tick.first = true ∧
        t.tick.base = (match s.tick.last with | none => 0 | some k => k + 1) ∧
        t.epoch = s.tickTime - s.tickTime % 2 ^ 14 ∧ t.tickIndex = some t.tick.base ∧
        t = { s with regs := { s.regs with held := t.regs.held }, tick := t.tick, easels := t.easels }) ∧
    (s.run = false → 0 < s.rateNum → 0 < s.rateDen → 48 * s.rateDen ≤ s.rateNum → s.rateNum ≤ 240 * s.rateDen →
      bit (s.reg idTickCtrl) 1 = true → s.unified = true → bit (s.reg idTimeCfg) 1 = true →
      ∃ t, exec .tickRunSet s = .next t ∧ t.run = true ∧ t.epoch = s.epoch ∧ t.tick = mine { s.tick with base := 0, first := true, stretched := false } ∧
        (∀ id, id ≠ idTickCtrl → t.reg id = s.reg id) ∧
        t = { s with regs := { s.regs with held := t.regs.held }, tick := t.tick, easels := t.easels }) ∧
    (s.run = true → exec .tickRunSet s = .next { s with tick := mine s.tick }) ∧
    ∃ t, exec .tickRunClear s = .next t ∧ t.run = false ∧ t = { s with regs := { s.regs with held := t.regs.held }, tick := t.tick } ∧
      t.tick = mine { s.tick with strobesRun := if s.run then s.gridPoints else s.tick.strobesRun } ∧
      (∀ id, id ≠ idTickCtrl → t.reg id = s.reg id)

/-- With nothing pending one TIME_CLK cycle passes (log entry 2): every edge adds 2^32 + RATE_b to a timebase under SEPARATE and 2^32 to C,
and under UNIFIED the view of C follows from BASE, ANCHOR and RATE; the counts of elapsed time advance by one, and in STANDBY an idle module
goes back to its low-power state (log entry 128); beside that only errors arise in the cells of the stack and of the NVM (log entry 143). A
readout capture holds the block's view, TIME_GET answers SEC, NS and FRAC of a view, and TIME_ADJUST queues one adjustment for its edge or
refuses one out of range, behind the steps that wait, or of a timebase that the firmware's servo owns. -/
def Obligations.TimebasesAdvanceAndAreAdjusted : Prop :=
  (∀ s : State, s.pending = [] → s.pmu.lowering = none → s.raising = false → s.time.ptp.excess = [] →
    let upset (t : State) : State := { s with
      now := t.now, ucie := s.linkIdle.ucie, dmc := { s.dmc with upset := t.dmc.upset }
      nvm := { s.nvm with bytes := t.nvm.bytes, pages := t.nvm.pages } }
    ∃ t, step s = .next t ∧ t.now = s.now + 1 ∧ t.pending = [] ∧
      (s.timeRuns = true → s.tick.runLate = false → (∀ b, b < 4 → (s.tb b).adj = []) →
        t = { upset t with time := t.time } ∧ t.cCount = (s.cCount + 2 ^ 32) % 2 ^ 94 ∧
        (s.unified = false → ∀ b, b < 4 → t.view b = s.view b + 2 ^ 32 + (s.tb b).rate) ∧
        (s.unified = true → ∀ b, b < 4 → t.view b = (s.tb b).base + (t.cCount - (s.tb b).anchor) % 2 ^ 94 +
          Int.fdiv ((t.cCount - (s.tb b).anchor) % 2 ^ 94 * (s.tb b).rate) (2 ^ 32))) ∧
      (s.timeRuns = false → t = upset t) ∧
      (s.pmu.mode ≠ .standby → t.ucie = s.ucie)) ∧
  ((∀ (s : State) (blk : Fin 6), s.up dTime = true →
    ∃ t, exec (.timebaseReadCapture blk) s = .next t ∧ t.time.holds = s.time.holds.set blk (s.blockView blk) ∧
      t = { s with time := { s.time with holds := t.time.holds } }) ∧
  (∀ (s : State) (c : Cmd), s.mayStart c 0x0801 = true →
    (4 ≤ c.arg 0 1 → ∃ t, exec (.timeGet c) s = .next t ∧ Answered s t c 2 0x0801 []) ∧
    (c.arg 0 1 < 4 → ∃ t p, exec (.timeGet c) s = .next t ∧ Answered s t c 0 0 p ∧
      leAt p 0 6 = wOf (s.view (c.arg 0 1)) / 2 ^ 16 / 1000000000 % 2 ^ 48 ∧
      leAt p 6 4 = wOf (s.view (c.arg 0 1)) / 2 ^ 16 % 1000000000 ∧ leAt p 10 2 = wOf (s.view (c.arg 0 1)) % 2 ^ 16 ∧
      (byteAt p 12).getLsbD 0 = s.time.ptp.locked ∧ (byteAt p 12).getLsbD 1 = s.tbOwned (c.arg 0 1))) ∧
  (∀ (s : State) (c : Cmd), s.mayStart c 0x0802 = true →
    let b := c.arg 0 1
    let x := signed 64 (c.arg 8 8)
    let after := s.view b + (((s.tb b).adj.filter fun a => a.1).map Prod.snd).sum + x * 2 ^ 14
    (4 ≤ b ∨ 2 ≤ c.arg 1 1 ∨ (c.arg 1 1 = 1 ∧ 2 ^ 22 < x.natAbs) ∨
      (c.arg 1 1 = 0 ∧ (after < 0 ∨ 2 ^ 48 * 1000000000 * 2 ^ 30 < after)) →
      ∃ t, exec (.timeAdjust c) s = .next t ∧ Answered s t c 2 0x0801 []) ∧
    (b < 4 → (c.arg 1 1 = 1 ∧ x.natAbs ≤ 2 ^ 22) ∨
      (c.arg 1 1 = 0 ∧ 0 ≤ after ∧ after ≤ 2 ^ 48 * 1000000000 * 2 ^ 30) →
      (s.tbOwned b = true → ∃ t, exec (.timeAdjust c) s = .next t ∧ Answered s t c 2 0x0802 []) ∧
      (s.tbOwned b = false → ∃ t u, exec (.timeAdjust c) s = .next t ∧
        Answered u t c 0 0 (leBytes 8 (s.time.edges + (s.tb b).adj.length)) ∧
        u = { s with time := { s.time with tb := u.time.tb } } ∧ (∀ a, a ≠ b → u.tb a = s.tb a) ∧
        u.tb b = { s.tb b with adj := (s.tb b).adj ++ [if c.arg 1 1 = 0 then (true, x * 2 ^ 14) else (false, x)] }))))

/-- Timed outputs: TIMED_OUTPUT and ARM arm a channel; edges already reached are missed and counted, a once-pulse then clears ARM and a
periodic channel owes one edge. An edge of the old program in the clock of a TIMED_OUTPUT comes first. An edge starts a pulse of WIDTH ns, or
sets RUN when it targets the tick generator, in the next clock where your write of RUN falls in this one; one that falls in a running pulse is
missed, and an owed one waits for its end (log entry 144); the pulse ends and ARM clears after a once-pulse. A strobe rises
at the first 1 ns step at which the tick view reaches nominal(k) + OFFSET, before the next raster tick has fired, and stays high for WIDTH ns;
the panel-safe sequence holds it inactive; its end clears it. -/
def Obligations.TimedOutputsAndStrobesPulse : Prop :=
  ((∀ (s : State) (c : Cmd), s.mayStart c 0x0805 = true →
    let n := c.arg 0 1
    let st := timeOf (c.arg 8 6) (c.arg 0xE 4) 0
    let v := s.view (fld (BitVec.ofNat 32 (c.arg 4 4)) 2 1)
    let missed := if c.arg 0x14 4 = 0 then 1 else ((v - st) / ((c.arg 0x14 4 : Int) * 2 ^ 30)).toNat + 1
    (4 ≤ n ∨ c.arg 0x18 4 < 4 ∨ (c.arg 0x14 4 ≠ 0 ∧ c.arg 0x14 4 ≤ c.arg 0x18 4) →
      ∃ t, exec (.timedOutput c) s = .next t ∧ Answered s t c 2 0x0806 []) ∧
    (n < 4 → 4 ≤ c.arg 0x18 4 → (c.arg 0x14 4 = 0 ∨ c.arg 0x18 4 < c.arg 0x14 4) → s.canonical = true →
      ∃ o t u, exec (.timedOutputEdge (Fin.ofNat 4 n)) s = .next o ∧ exec (.timedOutput c) s = .next t ∧ Answered u t c 0 0 [] ∧
        u.rf (idTo n 0) 4 1 = fld (BitVec.ofNat 32 (c.arg 4 4)) 4 1 ∧ u.toStart n = st ∧
        u.toPeriod n = c.arg 0x14 4 ∧ (u.reg (idTo n 5)).toNat = c.arg 0x18 4 ∧
        (∀ id, evuReg id = false → id ∉ (List.range 6).map (idTo n) → u.reg id = o.reg id) ∧
        (v < st → u = { o with regs := { o.regs with held := u.regs.held }, time := { o.time with outs := u.time.outs } } ∧
          u.toArmed n = true ∧ u.out n = { o.out n with k := 0, due := false, fired := false }) ∧
        (st ≤ v → u.toArmed n = decide (c.arg 0x14 4 ≠ 0) ∧ u.ctr (idTo n 6) = (o.ctr (idTo n 6) + missed) % 2 ^ 64 ∧
          (c.arg 0x14 4 ≠ 0 → u.out n = { o.out n with k := missed, due := true, fired := false })))) ∧
  (∀ (s : State) (n : Fin 4), s.up dTime = true → s.canonical = true → s.toArmed n = false →
    let v := s.view (s.toTb n)
    let missed := if s.toPeriod n = 0 then 1 else ((v - s.toStart n) / ((s.toPeriod n : Int) * 2 ^ 30)).toNat + 1
    ∃ t, exec (.timedOutputArm n) s = .next t ∧
      (v < s.toStart n → t.toArmed n = true ∧ t.out n = { s.out n with k := 0, due := false, fired := false } ∧
        t = { s with regs := { s.regs with held := t.regs.held }, time := { s.time with outs := t.time.outs } }) ∧
      (s.toStart n ≤ v → t.toArmed n = decide (s.toPeriod n ≠ 0) ∧ t.ctr (idTo n 6) = (s.ctr (idTo n 6) + missed) % 2 ^ 64 ∧
        (s.toPeriod n ≠ 0 → t.out n = { s.out n with k := missed, due := true, fired := false }) ∧
        (s.up dCtrl = true → s.locked 1 = true → t.evStatus 517 = true))) ∧
  (∀ (s : State) (n : Fin 4) (j : Nat), s.timeRuns = true → s.canonical = true → s.toArmed n = true → (s.out n).pulseEnd = none →
    (s.out n).due = false → (s.toPeriod n ≠ 0 ∨ (s.out n).k = 0) → s.reachStep (s.toTb n) (s.toNext n) = some j →
    (bit (s.reg (idTo n 0)) 3 = false → ∃ t, exec (.timedOutputEdge n) s = .next t ∧
      t.out n = ⟨(s.out n).k + 1, some (s.localNs + j + (s.reg (idTo n 5)).toNat), false, true⟩ ∧
      t = { s with time := { s.time with outs := t.time.outs }, pmu := { s.pmu with alarm := t.pmu.alarm } }) ∧
    (bit (s.reg (idTo n 0)) 3 = true → (s.out n).fired = true ∨ s.run = true → s.toPeriod n ≠ 0 →
      ∃ t, exec (.timedOutputEdge n) s = .next t ∧ t.run = s.run ∧ t.out n = { s.out n with k := (s.out n).k + 1, due := false, fired := true }) ∧
    (bit (s.reg (idTo n 0)) 3 = true → (s.out n).fired = false → s.tick.hostRunAt = some s.now →
      ∃ t, exec (.timedOutputEdge n) s = .next t ∧ t.run = s.run ∧ t.tick = { s.tick with runLate := true }) ∧
    (bit (s.reg (idTo n 0)) 3 = true → (s.out n).fired = false → s.run = false → s.tick.hostRunAt ≠ some s.now →
      bit (s.reg idTickCtrl) 1 = false → 0 < s.rateDen → 48 * s.rateDen ≤ s.rateNum → s.rateNum ≤ 240 * s.rateDen →
      ∃ t, exec (.timedOutputEdge n) s = .next t ∧ t.run = true ∧ t.tick.first = true)) ∧
  (∀ (s : State) (n : Fin 4), s.timeRuns = true → s.canonical = true → s.toArmed n = true → (s.out n).pulseEnd ≠ none →
    ((s.out n).due = true → exec (.timedOutputEdge n) s = .next s) ∧
    ∀ j, (s.out n).due = false → s.toPeriod n ≠ 0 → s.reachStep (s.toTb n) (s.toNext n) = some j →
      ∃ t, exec (.timedOutputEdge n) s = .next t ∧ t.ctr (idTo n 6) = (s.ctr (idTo n 6) + 1) % 2 ^ 64 ∧
        t.out n = { s.out n with k := (s.out n).k + 1 } ∧ t.toArmed n = true ∧ t.run = s.run ∧
        (s.up dCtrl = true → s.locked 1 = true → t.evStatus 517 = true)) ∧
  (∀ (s : State) (n : Fin 4) (e : Nat), s.timeRuns = true → s.canonical = true → (s.out n).pulseEnd = some e → e ≤ s.localNs + 3 →
    ∃ t, exec (.timedOutputWidthEnd n) s = .next t ∧ t.out n = { s.out n with pulseEnd := none } ∧
      (t.toArmed n = true ↔ s.toArmed n = true ∧ ¬ (s.toPeriod n = 0 ∧ 0 < (s.out n).k)) ∧
      t = { s with regs := { s.regs with held := t.regs.held }, time := { s.time with outs := t.time.outs } })) ∧
  (∀ (s : State) (m : Fin 4), s.timeRuns = true →
    (s.rasterFired = true → exec (.strobeFire m) s = .next s) ∧
    (∀ k j, s.rasterFired = false → s.time.strobes[m].due = some k →
      ((List.range 4).find? fun j => decide (s.nominalNum k + ((s.reg (idStbOffset m)).toNat : Int) * s.rateNum * 2 ^ 30 ≤
        s.viewPlus s.tickTb j * s.rateNum)) = some j →
      ∃ t, exec (.strobeFire m) s = .next t ∧ t = { s with time := { s.time with strobes := t.time.strobes } } ∧
        (∀ z : Fin 4, z ≠ m → t.time.strobes[z] = s.time.strobes[z]) ∧ t.time.strobes[m].due = none ∧
        (s.panel.strobesHeld = false → t.time.strobes[m].pulseEnd = some (s.localNs + j + s.rf (idStbCtrl m) 23 8)) ∧
        (s.panel.strobesHeld = true → t.time.strobes[m].pulseEnd = s.time.strobes[m].pulseEnd)) ∧
    (∀ e, s.time.strobes[m].pulseEnd = some e → e ≤ s.localNs + 3 →
      ∃ t, exec (.strobeWidthEnd m) s = .next t ∧ t = { s with time := { s.time with strobes := t.time.strobes } } ∧
        (∀ z : Fin 4, z ≠ m → t.time.strobes[z] = s.time.strobes[z]) ∧
        t.time.strobes[m] = { s.time.strobes[m] with pulseEnd := none }))

/-- The PTP port: frames that R433 does not accept, by version, transport and destination, are dropped and counted, those of another domain are
ignored, and an accepted one, stamped with its latencies subtracted, advances the protocol, or waits while the firmware does not run; a
Delay_Resp completes an entry of the queue only when it answers this port; PTP_CONFIG stops the port and empties the timestamp queue; loss of
Sync and of the lane. The queue: a stamp enters with its latencies added while an entry of pool 43 is free, else it waits for a read of the same
clock, at whose end it is dropped and counted with E514; an entry completes 1 s after transmission; TS_READ returns the complete head entry. -/
def Obligations.PtpPortAndStampQueueFollowTheirRules : Prop :=
  ((∀ (s : State) (fr : PtpFrame), s.up dTime = true → bit (s.reg idPtpCfg) 31 = true → s.time.ptp.link = true →
    let tr := fld (s.reg idPtpCfg) 29 28
    let stamp : Int := (wOf (s.view s.ptpTb) : Int) - ((if bit (s.reg idPtpCfg) 30 then 2306867 else 96 * 2 ^ 16) + s.rf idPtpLat 31 16 * 256 : Nat)
    let accepted := fr.version = 2 ∧ ((fr.transport = 0 ∧ tr ≠ 1) ∨ (fr.transport = 1 ∧ tr ≠ 0)) ∧
      (fr.dst ∈ ptpGroups fr.transport ∨ fr.dst = if fr.transport = 0 then s.ptpMac else s.ptpIp)
    (¬ accepted → exec (.ptpFrameRx fr) s = .next (s.addCtr idRxDropped 1)) ∧
    (accepted → s.fw = false → exec (.ptpFrameRx fr) s = .next
      { s with time := { s.time with ptp := { s.time.ptp with inbox := s.time.ptp.inbox ++ [(fr, stamp)] } } }) ∧
    (accepted → fr.dom ≠ fld (s.reg idPtpCfg) 6 0 → s.fw = true → s.time.ptp.inbox = [] → exec (.ptpFrameRx fr) s = .next s) ∧
    (accepted → fr.dom = fld (s.reg idPtpCfg) 6 0 → s.fw = true → s.time.ptp.inbox = [] → ∃ t, exec (.ptpFrameRx fr) s = .next t ∧
      t.time.ptp.seen = .rx fr stamp :: s.time.ptp.seen ∧ t.time.ptp.inbox = [] ∧
      t.time.ptp.port = Config.ptpState s.time.ptp.settings s.time.ptp.link (.rx fr stamp :: s.time.ptp.seen) % 8 ∧
      (∀ o, Config.ptpOffset s.time.ptp.settings (.rx fr stamp :: s.time.ptp.seen) = some o → t.time.ptp.offset = o) ∧
      (fr.msgType ≠ 9 ∨ fr.requester ≠ s.portIdentity → t.time.ptp.queue = s.time.ptp.queue) ∧
      (fr.msgType = 9 → fr.requester = s.portIdentity → t.time.ptp.queue = s.time.ptp.queue.map fun e =>
        if e.msgType = 1 ∧ e.seqId = fr.seqId ∧ e.offset = none ∧ e.noResp = false
        then { e with offset := some (Config.ptpTsOffset s.time.ptp.settings (.rx fr stamp :: s.time.ptp.seen)) } else e) ∧
      (bit (s.reg idPtpCfg) 25 = true → t.time.tb = s.time.tb))) ∧
  (∀ (s : State) (c : Cmd), s.mayStart c 0x0803 = true →
    (ptpArgOk c = false → ∃ t, exec (.ptpConfig c) s = .next t ∧ Answered s t c 2 0x0803 []) ∧
    (ptpArgOk c = true → s.canonical = true → s.time.ptp.excess = [] → ∃ t, exec (.ptpConfig c) s = .next t ∧ t.time.ptp.queue = [] ∧
      bit (t.reg idPtpCfg) 31 = false ∧ t.time.ptp.locked = false ∧ t.dk.started = s.dk.started ++ [c] ∧ t.trays = s.trays ∧
      t.pool 43 = { s.pool 43 with returned := ((s.pool 43).returned + s.time.ptp.queue.length) % 2 ^ 64 })) ∧
  (∀ s : State, s.up dTime = true → s.time.ptp.locked = true →
    let log := signed 8 (leAt s.time.ptp.settings 6 1)
    s.time.ptp.lastSync + leAt s.time.ptp.settings 7 1 * (if 0 ≤ log then 250000000 * 2 ^ log.toNat else 250000000 / 2 ^ (-log).toNat)
      ≤ s.now →
    ∃ t, exec .ptpSyncTimeout s = .next t ∧ t.time.ptp = { s.time.ptp with locked := false, good := 0 } ∧
      EventEffect { s with time := { s.time with ptp := t.time.ptp } } t ∧
      (s.canonical = true → s.up dCtrl = true → s.locked 1 = true → t.evStatus 516 = true)) ∧
  (∀ (s : State) (up : Bool), s.up dTime = true → up = false ∨ s.locked 14 = true → ∃ t, exec (.ptpLaneLockChange up) s = .next t ∧ t.time.ptp.link = up ∧
    EventEffect { s with time := { s.time with ptp := t.time.ptp } } t)) ∧
  ((∀ (s : State) (q : BitVec 16) (ty : BitVec 4), s.timeRuns = true → bit (s.reg idPtpCfg) 31 = true → s.time.ptp.link = true →
    ty.toNat ≤ 3 → bit (s.reg idPtpCfg) 25 = true →
    let stamp : Int := (wOf (s.view s.ptpTb) : Int) + ((if bit (s.reg idPtpCfg) 30 then 1468006 else 48 * 2 ^ 16) + s.rf idPtpLat 15 0 * 256 : Nat)
    let e : TsEntry := ⟨stamp, q, ty, s.time.ptp.tag, s.now, none, false⟩
    (s.time.ptp.queue.length < 16 → ∃ t, exec (.ptpTxStamp q ty) s = .next t ∧ t = { s with time := t.time, pools := t.pools } ∧
      t.time.ptp = { s.time.ptp with
        tag := (s.time.ptp.tag + 1) % 256
        queue := s.time.ptp.queue ++ [e]
        seen := .tx q ty stamp :: s.time.ptp.seen } ∧
      t.pool 43 = { s.pool 43 with issued := ((s.pool 43).issued + 1) % 2 ^ 64, produced := ((s.pool 43).produced + 1) % 2 ^ 64 }) ∧
    (16 ≤ s.time.ptp.queue.length → exec (.ptpTxStamp q ty) s = .next { s with time := { s.time with ptp := { s.time.ptp with
      tag := (s.time.ptp.tag + 1) % 256, seen := .tx q ty stamp :: s.time.ptp.seen, excess := s.time.ptp.excess ++ [e] } } })) ∧
  (∀ (s : State) (e : TsEntry), s.pending = [] → s.time.ptp.excess = [e] → ∃ t, step s = .next t ∧ t.time.ptp.excess = [] ∧
    t.time.ptp.queue = s.time.ptp.queue ∧ (t.pool 43).dropped = ((s.pool 43).dropped + 1) % 2 ^ 64 ∧
    (s.canonical = true → s.up dTime = true → s.up dCtrl = true → s.locked 1 = true → t.evStatus 514 = true)) ∧
  (∀ s : State, ∃ t, exec .tsEntryTimeout s = .next t ∧ t = { s with time := { s.time with ptp := { s.time.ptp with queue := t.time.ptp.queue } } } ∧
    t.time.ptp.queue.length = s.time.ptp.queue.length ∧
    ∀ (i : Nat) (h : i < s.time.ptp.queue.length) (h' : i < t.time.ptp.queue.length),
      (s.time.ptp.queue[i].offset = none → s.time.ptp.queue[i].queuedAt + 250000000 ≤ s.now → t.time.ptp.queue[i].noResp = true) ∧
      (¬ (s.time.ptp.queue[i].offset = none ∧ s.time.ptp.queue[i].queuedAt + 250000000 ≤ s.now) →
        t.time.ptp.queue[i] = s.time.ptp.queue[i])) ∧
  (∀ (s : State) (c : Cmd), s.mayStart c 0x0804 = true →
    (bit (s.reg idPtpCfg) 25 = false → ∃ t, exec (.tsRead c) s = .next t ∧ Answered s t c 2 0x0805 []) ∧
    (bit (s.reg idPtpCfg) 25 = true →
      ((s.time.ptp.queue = [] ∨ ∃ e rest, s.time.ptp.queue = e :: rest ∧ e.offset = none ∧ e.noResp = false) →
        ∃ t, exec (.tsRead c) s = .next t ∧ Answered s t c 2 0x0804 []) ∧
      (∀ e rest, s.time.ptp.queue = e :: rest → e.offset.isSome = true ∨ e.noResp = true →
        ∃ t u p, exec (.tsRead c) s = .next t ∧ Answered u t c 0 0 p ∧ u = { s with time := u.time, pools := u.pools } ∧
          u.time.ptp.queue = rest ++ s.time.ptp.excess.take (16 - rest.length) ∧
          (s.time.ptp.excess = [] → u.pool 43 = { s.pool 43 with returned := ((s.pool 43).returned + 1) % 2 ^ 64 }) ∧
          leAt p 0 6 = e.stamp.toNat / 2 ^ 16 / 1000000000 % 2 ^ 48 ∧ leAt p 6 4 = e.stamp.toNat / 2 ^ 16 % 1000000000 ∧
          leAt p 10 2 = e.stamp.toNat % 2 ^ 16 ∧ leAt p 12 2 = e.seqId.toNat ∧ leAt p 14 1 = e.tag % 256 ∧
          (byteAt p 15).getLsbD 4 = e.noResp ∧ leAt p 16 8 = if e.noResp then 0 else unsigned 64 (e.offset.getD 0)))))

/-! ### The DRAM controller (chapter 12) -/

/-- DRAM_REQUEST takes a token of its own class, else a shared one above its class's guard, else waits; DRAM_ISSUE issues a request that
no issuable request outranks, and none in a retraining pause; DRAM_RETIRE returns the token under the class of issue, counts the bytes there, and
stores the bytes that a write's mask names and no other. -/
def Obligations.DramTokensAndArbitration : Prop :=
  (∀ (s : State) (pc : Fin 64) (r : DramReq), s.dmcRuns = true → dramPc r.addr = pc.val → (s.pc pc).waiting = [] →
    let x := s.pc pc
    let c := s.classOf r.who
    let own := (x.queued.filter fun e => e.tok == c && !e.shared).length
    let free := 20 - (x.queued.filter fun e => e.shared).length
    let d (sh : Bool) (seq : Nat) : DReq := ⟨x.next, seq, r, c, c, sh, s.now, false, false, 0, false, none, none⟩
    ∃ t, exec (.dramRequest pc r) s = .next t ∧ t = { s with dmc := t.dmc, pools := t.pools } ∧
      (∀ p : Fin 64, p ≠ pc → t.pc p = s.pc p) ∧ (∀ a, t.dramByte a = s.dramByte a) ∧
      t.dmc.sidPd.getLsbD (dramSid r.addr) = false ∧
      (own < classReserved c → (t.pc pc).queued = x.queued ++ [d false s.dmc.serial] ∧ (t.pc pc).waiting = []) ∧
      (classReserved c ≤ own → classGuard c < free → (t.pc pc).queued = x.queued ++ [d true s.dmc.serial] ∧ (t.pc pc).waiting = []) ∧
      (classReserved c ≤ own → free ≤ classGuard c → (t.pc pc).queued = x.queued ∧ (t.pc pc).waiting = [d false 0] ∧ t.pools = s.pools) ∧
      (own < classReserved c ∨ classGuard c < free → (∀ k, k = 18 + classIx c ∨ k = 23 →
        t.pool k = { s.pool k with issued := ((s.pool k).issued + 1) % 2 ^ 64 }) ∧ t.occupancy 23 = s.occupancy 23 + 1)) ∧
  (∀ (s : State) (pc : Fin 64) (blocked : List Nat), s.paused pc = true → exec (.dramIssue pc blocked) s = .next s) ∧
  (∀ (s : State) (pc : Fin 64) (blocked : List Nat) (r : DReq), s.dmcRuns = true → (s.pc pc).choose (s.issuable pc) blocked = some r →
    r ∈ (s.pc pc).queued ∧ r.issued = false ∧ r.num ∉ blocked ∧ s.heldBack r = false ∧
    (∀ e ∈ s.issuable pc, e.num ∉ blocked → mayPass ((s.issuable pc).filter fun x => x.rank == e.rank) e = true → r.rank ≤ e.rank) ∧
    ((∃ e ∈ s.issuable pc, e.aged = false ∧ e.cls = .rtp) → r.rank = 0) ∧
    ∃ t, exec (.dramIssue pc blocked) s = .next t ∧ (∀ p : Fin 64, p ≠ pc → t.pc p = s.pc p) ∧
      (∀ e ∈ (t.pc pc).queued, e.num = r.num → e.issued = true) ∧ (t.pc pc).queued.length = (s.pc pc).queued.length ∧
      mapFind (t.pc pc).rows (bankKey r.req.addr) = some (dramRow r.req.addr) ∧ (∀ a, t.dramByte a = s.dramByte a) ∧
      (r.cls ≠ .rtp → t.fresh = s.fresh) ∧
      t = { s with dmc := t.dmc, fresh := t.fresh, regs := { s.regs with live := t.regs.live, clock := t.regs.clock } }) ∧
  (∀ (s : State) (pc : Fin 64) (n : Nat) (r : DReq), s.dmcRuns = true → (s.pc pc).waiting = [] →
    ((s.pc pc).queued.find? fun e => e.num == n) = some r → r.issued = true → r.unit = none →
    s.badBeats r.req.addr r.req.len = [] → s.canonical = true →
    s.live (idDmcBytes (classIx r.tok)) + r.req.counted < 2 ^ 48 →
    ∃ t, exec (.dramRetire pc n .clean) s = .next t ∧ (t.pc pc).queued = (s.pc pc).queued.erase r ∧
      (∀ k, k = 18 + classIx r.tok ∨ k = 23 → t.pool k = { s.pool k with returned := ((s.pool k).returned + 1) % 2 ^ 64 }) ∧
      t.live (idDmcBytes (classIx r.tok)) = s.live (idDmcBytes (classIx r.tok)) + r.req.counted ∧
      (∀ i, i < r.req.len → t.dramByte (r.req.addr + i) = if r.req.mask.testBit i then byteAt r.req.data i else s.dramByte (r.req.addr + i)) ∧
      (∀ a, a < r.req.addr ∨ r.req.addr + r.req.len ≤ a → t.dramByte a = s.dramByte a) ∧
      t = { s with dmc := t.dmc, pools := t.pools, caches := t.caches, regs := { s.regs with live := t.regs.live, clock := t.regs.clock } })

/-- Aging, age bounds, refresh, retraining and SID power-down: what each does once its condition holds. A pass pauses both pseudo-channels of its
channel, one after the other, each for 120 ns (log entry 141). -/
def Obligations.AgingRefreshRetrainingAndPowerDown : Prop :=
  (∀ (s : State) (pc : Fin 64) (n : Nat) (r : DReq), s.dmcRuns = true → (s.pc pc).find n = some r → r.issued = false → r.aged = false →
    (r.cls = .mg ∧ r.asked + 250 ≤ s.now) ∨ (r.cls = .be ∧ r.asked + 250 * s.rf idDmcCtrl 21 16 ≤ s.now) →
    ∃ t, exec (.requestAged pc n) s = .next t ∧ (∃ e, (t.pc pc).find n = some e ∧ e.aged = true ∧ e.rank = 0) ∧
      t = { s with dmc := t.dmc, regs := { s.regs with live := t.regs.live, clock := t.regs.clock } } ∧ (∀ a, t.dramByte a = s.dramByte a)) ∧
  (∀ (s : State) (pc : Fin 64) (n : Nat) (r : DReq), s.up dDmc = true → (s.pc pc).find n = some r → r.issued = false → r.late = false →
    (r.cls = .mg ∧ r.asked + 1000 < s.now) ∨ (r.cls = .be ∧ r.asked + 16000 < s.now) →
    ∃ t, exec (.ageBound pc n) s = .next t ∧ EventEffect { s with dmc := t.dmc } t ∧
      (s.canonical = true → s.up dCtrl = true → s.locked 1 = true → t.evStatus 196 = true)) ∧
  (∀ (s : State) (pc : Fin 64) (sid : Fin 8) (bank : Fin 16), s.dmcRuns = true → s.canonical = true →
    let k := debtKey pc sid bank
    let due := (s.refInt k).1 + tRefi (s.refInt k).2
    (16 * s.now < due → exec (.refreshInterval pc sid bank) s = .next s) ∧
    (due ≤ 16 * s.now → ∃ t, exec (.refreshInterval pc sid bank) s = .next t ∧
      t.debt k = (if 8 ≤ s.debt k + 1 then 7 else s.debt k + 1) ∧ (∀ j, j ≠ k → t.debt j = s.debt j) ∧
      t.refInt k = (due, if 8 ≤ s.debt k + 1 then s.dmc.ref2x else (s.refInt k).2) ∧
      (8 ≤ s.debt k + 1 → mapFind (t.pc pc).rows (16 * sid.val + bank.val) = none) ∧
      t = { s with dmc := t.dmc, regs := { s.regs with live := t.regs.live, clock := t.regs.clock } } ∧ (∀ a, t.dramByte a = s.dramByte a)) ∧
    ((∀ r ∈ (s.pc pc).queued, bankKey r.req.addr ≠ 16 * sid.val + bank.val) → -8 < s.debt k →
      ∃ t, exec (.bankRefresh pc sid bank) s = .next t ∧ t.debt k = s.debt k - 1 ∧ t = { s with dmc := t.dmc } ∧
        t.refInt k = ((s.refInt k).1, s.dmc.ref2x) ∧ (∀ a, t.dramByte a = s.dramByte a)) ∧
    ((∃ r ∈ (s.pc pc).queued, bankKey r.req.addr = 16 * sid.val + bank.val) → 8 ≤ s.debt k →
      ∃ t, exec (.bankRefresh pc sid bank) s = .next t ∧ t.debt k = 7 ∧
        t = { s with dmc := t.dmc, regs := { s.regs with live := t.regs.live, clock := t.regs.clock } } ∧ (∀ a, t.dramByte a = s.dramByte a)) ∧
    (s.debt k ≤ -8 → exec (.bankRefresh pc sid bank) s = .next s)) ∧
  (∀ (s : State) (d : Fin 32) (low : Bool), s.dmcRuns = true → (∀ q : Fin 4, s.scanning q = false) → s.passing d < 2 →
    (∀ e ∈ s.dmc.deferred, e.1 / 2 ≠ d.val) → s.dmc.lastPass[d] + 125000 < s.now →
    ∃ t, exec (.retrainPass d low) s = .next t ∧ t.dmc = { s.dmc with
        lastPass := s.dmc.lastPass.set d s.now
        pauses := (s.dmc.pauses.filter fun e => decide (s.now < e.2.2)) ++
          [(2 * d.val, s.now, s.now + 30), (2 * d.val + 1, s.now + 30, s.now + 60)] } ∧
      (low = true → s.canonical = true → t.ctr (idTrainFail d.val) = (s.ctr (idTrainFail d.val) + 1) % 2 ^ 64 ∧
        (s.up dCtrl = true → s.locked 1 = true → t.evStatus 193 = true)) ∧
      (low = false → t = { s with dmc := t.dmc, regs := { s.regs with live := t.regs.live, clock := t.regs.clock } })) ∧
  (∀ (s : State) (sid : Fin 8), s.dmcRuns = true → s.rf idDmcCtrl 15 8 ≠ 0 →
    (∀ p : Fin 64, (∀ r ∈ (s.pc p).queued ++ (s.pc p).waiting, dramSid r.req.addr ≠ sid.val) ∧ (∀ e ∈ (s.pc p).rows, e.1 / 16 ≠ sid.val) ∧
      (s.pc p).rtpQueued = false) →
    4 * s.dmc.sidIdle[sid] + 250 * s.rf idDmcCtrl 15 8 ≤ 4 * s.now →
    ∃ t, exec (.sidPowerDown sid) s = .next t ∧ t = { s with dmc := { s.dmc with sidPd := t.dmc.sidPd } } ∧
      ∀ i : Fin 8, t.dmc.sidPd.getLsbD i = (i == sid || s.dmc.sidPd.getLsbD i))

/-- Errors and scrub: an error found by a scrub is logged with the SCRUB flag and counted, an uncorrectable one poisons its beat, a poisoned
one counts again at every read, and an error that has arisen in its cells since is found; a whole pass counts and raises E197; the on-die
counts accumulate once a second; DRAM_MAP answers a region and DRAM_SCRUB starts on a range. -/
def Obligations.ErrorsScrubAndTheMap : Prop :=
  (∀ s : State, s.dmcRuns = true → bit (s.reg idDmcCtrl) 0 = true → s.canonical = true → s.dmc.scrubAt ≤ s.now * 2 ^ 32 →
    let a := 8 * s.dmc.scrubPos
    let d := dramPc a / 2
    let next (t : State) : Prop := t.dmc.scrubAt = s.dmc.scrubAt + s.scrubHours * hourTime ∧
      t.dmc.scrubPos = (if s.dmc.scrubPos + 1 < 2 ^ 32 then s.dmc.scrubPos + 1 else 0) ∧ ∀ a, t.dramByte a = s.dramByte a
    (∀ r ∈ (s.pc (pcOf a)).queued, bankKey r.req.addr ≠ bankKey a) →
    (s.badBeats a 8 = [] → s.dmc.scrubPos + 1 < 2 ^ 32 →
      (∃ t, exec (.scrubRead .clean) s = .next t ∧ next t ∧ t = { s with dmc := t.dmc }) ∧
      (∃ t, exec (.scrubRead ⟨[0], []⟩) s = .next t ∧ next t ∧
        t.reg (idErrInfo d) = BitVec.ofNat 32 (errInfo a false true) ∧ t.reg (idErrAddrLo d) = loWord a ∧ t.reg (idErrAddrHi d) = hiWord a ∧
        t.ctr (idDcCe d) = (s.ctr (idDcCe d) + 1) % 2 ^ 64 ∧
        (s.dmc.ceRaised.getLsbD d = false → s.up dCtrl = true → s.locked 1 = true → t.evStatus (128 + 2 * d) = true) ∧
        (s.dmc.ceRaised.getLsbD d = true → t.evu = s.evu)) ∧
      (∃ t, exec (.scrubRead ⟨[], [0]⟩) s = .next t ∧ next t ∧ t.reg (idErrInfo d) = BitVec.ofNat 32 (errInfo a true true) ∧
        t.ctr (idDcUe d) = (s.ctr (idDcUe d) + 1) % 2 ^ 64 ∧ t.clean a 8 = false ∧
        (s.up dCtrl = true → s.locked 1 = true → t.evStatus (129 + 2 * d) = true))) ∧
    (∀ multi, s.poisoned s.dmc.scrubPos = false → mapFind s.dmc.upset s.dmc.scrubPos = some multi → s.dmc.scrubPos + 1 < 2 ^ 32 →
      ∃ t, exec (.scrubRead .clean) s = .next t ∧ next t ∧ mapFind t.dmc.upset s.dmc.scrubPos = none ∧ t.poisoned s.dmc.scrubPos = multi ∧
        t.ctr (idDcUe d) = (s.ctr (idDcUe d) + if multi then 1 else 0) % 2 ^ 64 ∧
        t.ctr (idDcCe d) = (s.ctr (idDcCe d) + if multi then 0 else 1) % 2 ^ 64) ∧
    (s.poisoned s.dmc.scrubPos = true → s.dmc.scrubPos + 1 < 2 ^ 32 →
      ∃ t, exec (.scrubRead .clean) s = .next t ∧ next t ∧ t.ctr (idDcUe d) = (s.ctr (idDcUe d) + 1) % 2 ^ 64 ∧ t.clean a 8 = false) ∧
    (s.badBeats a 8 = [] → s.dmc.scrubPos = 2 ^ 32 - 1 →
      ∃ t, exec (.scrubRead .clean) s = .next t ∧ next t ∧
        t.ctr idScrubPasses = (s.ctr idScrubPasses + 1) % 2 ^ 64 ∧ (s.up dCtrl = true → s.locked 1 = true → t.evStatus 197 = true))) ∧
  (∀ (s : State) (l : List Nat), s.fw = true → s.up dDmc = true → s.canonical = true →
    (s.now < s.dmc.odeccDue → exec (.odeccRead l) s = .next s) ∧
    (s.dmc.odeccDue ≤ s.now → ∃ t, exec (.odeccRead l) s = .next t ∧ (∀ k, k < 8 → t.ctr (idOdecc k) = (s.ctr (idOdecc k) + l.getD k 0) % 2 ^ 64) ∧
      (∀ id, (∀ k, k < 8 → id ≠ idOdecc k) → t.ctr id = s.ctr id) ∧
      t = { s with regs := { s.regs with ctrs := t.regs.ctrs }, dmc := { s.dmc with odeccDue := s.now + 250000000 } })) ∧
  (∀ (s : State) (c : Cmd), s.mayStart c 0x0701 = true →
    (5 ≤ c.arg 0 1 → ∃ t, exec (.dramMap c) s = .next t ∧ Answered s t c 2 0x0108 []) ∧
    (∀ base size, dramRegion (c.arg 0 1) = some (base, size) → ∃ t p, exec (.dramMap c) s = .next t ∧ Answered s t c 0 0 p ∧
      leAt p 0 8 = base ∧ leAt p 8 8 = size)) ∧
  (∀ (s : State) (c : Cmd), s.mayStart c 0x0702 = true →
    (2 ^ 35 < c.arg 0 8 + c.arg 8 8 → ∃ t, exec (.dramScrub c) s = .next t ∧ Answered s t c 2 0x0108 []) ∧
    (c.arg 0 8 + c.arg 8 8 ≤ 2 ^ 35 → exec (.dramScrub c) s = .next { s with dk := { s.dk with started := s.dk.started ++ [c] } }))

/-! ### Exposures and commits (chapter 2) -/

/-- COMMIT: a target more than 65,536 ticks ahead is TARGET_FAR; one that is no frame tick under the N that the set puts in force is
TARGET_ALIGN; one nearer than 500 microseconds to its nominal time is TARGET_LATE. Such a COMMIT is answered at once with its reason and
E291, and the staging set and the pending sets stay; a target with none of these faults is not refused with one of the three reasons. -/
def Obligations.CommitChecksItsTarget : Prop :=
  ∀ (s : State) (c : Cmd), s.mayStart c 0x0201 = true → s.canonical = true → c.tray = s.dk.owner → s.active = true →
    s.pmu.trans = none → resultOk (c.arg 0 8) 176 = true → s.expo.pend.length < 4 → s.trial.actions.contains 3 = false →
    s.trial.expo = true →
    let n := s.trialN s.trial
    let align := setAlign true (n != s.baseN s.trial) n
    let refused (reason : Nat) : Prop := ∃ t u, exec (.commit c) s = .next t ∧ EventEffect s u ∧ u.evStatus 291 = true ∧
      Answered u t c 2 reason []
    (c.target = wildTarget → s.curTick + 65536 < s.wildResolve align → refused 0x0209) ∧
    (c.target ≠ wildTarget → (∀ e ∈ s.expo.pend, e.target < c.target) →
      (s.curTick + 65536 < c.target → refused 0x0209) ∧
      ((c.target : Int) ≤ s.curTick + 65536 → c.target % align ≠ 0 → refused 0x020A) ∧
      (n ≤ 2 → align = (if n = s.baseN s.trial then 2 ^ n else 4)) ∧
      ((c.target : Int) ≤ s.curTick + 65536 → c.target % align = 0 →
        (s.nominalNum c.target < (s.tickTime + 500000 * 2 ^ 30) * s.rateNum → refused 0x0208) ∧
        ((s.tickTime + 500000 * 2 ^ 30) * s.rateNum ≤ s.nominalNum c.target → s.curTick < c.target →
          ∀ t, exec (.commit c) s = .next t → ∀ r ∈ (t.tray c.tray).held.getLast?, r.reason ≠ 0x0208 ∧ r.reason ≠ 0x0209 ∧
            r.reason ≠ 0x020A ∧ r.reason ≠ 0x020B)))

/-- An accepted COMMIT freezes the staging set as the last pending set and is answered ACCEPTED with its tick and without a final response;
its report goes to RESULT and nowhere else, and until the tokens for it are free the COMMIT waits. A COMMIT refused by a check or by
admission keeps the staging set and every pending set, and raises E291. -/
def Obligations.CommitIsAcceptedOrRefused : Prop :=
  ∀ (s : State) (c : Cmd), s.mayStart c 0x0201 = true → s.canonical = true →
    let t := s.trial
    let changesN := decide (s.trialN t ≠ s.baseN t)
    let align := setAlign t.expo changesN (s.trialN t)
    let r := s.commitReason c t align
    let target := if c.target = wildTarget then s.wildResolve align else c.target
    let runs := t.expo || changesN || s.trialReg t idDscCtrl != s.baseReg t idDscCtrl
    let a := s.admission t s.pmu.mode s.expo.stop
    (r ≠ 0x0200 → ∃ w u, exec (.commit c) s = .next w ∧ EventEffect s u ∧ u.evStatus 291 = true ∧ Answered u w c 2 r []) ∧
    (r = 0x0200 → runs = true → s.resultRoom (c.arg 0 8) 176 = false → exec (.commit c) s = .next s) ∧
    (r = 0x0200 → runs = true → s.resultRoom (c.arg 0 8) 176 = true → a.1 ≠ 0x0200 → ∃ w v u p, exec (.commit c) s = .next w ∧
      DramEffect s v ∧ EventEffect v u ∧ u.evStatus 291 = true ∧ Answered u w c 2 a.1 p ∧
      ∀ x, c.arg 0 8 = 0 ∨ x < c.arg 0 8 ∨ c.arg 0 8 + 176 ≤ x → w.dramByte x = s.dramByte x) ∧
    (r = 0x0200 → (runs = false ∨ (a.1 = 0x0200 ∧ s.resultRoom (c.arg 0 8) 176 = true)) → ∃ w v, exec (.commit c) s = .next w ∧ DramEffect s v ∧
      w = { v with
        regs := { v.regs with staged := [] }
        expo := { s.expo with pend := s.expo.pend ++ [⟨target, c, s.regs.staged, t.expo, t.actions, changesN, s.trialN t⟩] }
        dk := { s.dk with started := s.dk.started ++ [c] }, trays := w.trays } ∧
      (runs = false → v = s) ∧
      (w.tray c.tray).held = (s.tray c.tray).held ++
        [⟨s.now, c.tag, c.opcode, 1, false, 0x0200, padTo 24 (s.commitPayload target (runs && s.fitsPending t)), c.index⟩] ∧
      (∀ z, z ≠ c.tray → w.tray z = s.tray z) ∧
      ∀ x, runs = false ∨ c.arg 0 8 = 0 ∨ x < c.arg 0 8 ∨ c.arg 0 8 + 176 ≤ x → w.dramByte x = s.dramByte x)

/-- Whatever the target, wildcard or index: a set that COMMIT adds to the pending sets is the last of at most four, lies later than all others
when they are in order, is at least 500 microseconds ahead, after the current tick and at most 65,536 ticks after it, and meets its alignment.
-/
def Obligations.PendingSetsMeetTheirTargetRules : Prop :=
  ∀ (s t : State) (c : Cmd) (e : PendSet), 0 < s.rateDen → 0 < s.rateNum → s.expo.pend.Pairwise (fun a b => a.target < b.target) →
    exec (.commit c) s = .next t → t.expo.pend = s.expo.pend ++ [e] →
    t.expo.pend.length ≤ 4 ∧ t.expo.pend.Pairwise (fun a b => a.target < b.target) ∧ s.inTime e.target = true ∧
    s.curTick < e.target ∧ (e.target : Int) ≤ s.curTick + 65536 ∧ (e.hasExpo = true → e.target % 2 ^ e.nLog2 = 0) ∧ (e.changesN = true → e.target % 4 = 0) ∧
    e.cmd = c ∧ e.fields = s.regs.staged

/-- COMMIT_CANCEL ends the pending set it names with status FAILED for its COMMIT (with a free reason, log entry 26), and refuses one from
another Tray, of no pending target, or later than 500 microseconds before it; EXPO_QUERY and ADMIT_TRY answer and leave the staging set
and the pending sets alone. -/
def Obligations.PendingSetsAreCancelledAndQueried : Prop :=
  (∀ (s : State) (c : Cmd), s.mayStart c 0x0202 = true →
    (c.tray ≠ s.dk.owner → ∃ t, exec (.commitCancel c) s = .next t ∧ Answered s t c 2 0x0105 []) ∧
    (c.tray = s.dk.owner → (∀ e ∈ s.expo.pend, e.target ≠ c.arg 0 8) →
      ∃ t, exec (.commitCancel c) s = .next t ∧ Answered s t c 2 0x0215 []) ∧
    (∀ e, c.tray = s.dk.owner → s.expo.pend.find? (fun e => e.target == c.arg 0 8) = some e →
      (s.inTime (c.arg 0 8) = false → ∃ t, exec (.commitCancel c) s = .next t ∧ Answered s t c 2 0x0208 []) ∧
      (s.inTime (c.arg 0 8) = true → s.waits e.cmd = true → ∃ t u v, exec (.commitCancel c) s = .next t ∧
        u = { s with expo := u.expo, plates := u.plates, fresh := s.fresh + 1 } ∧
        u.expo = { s.expo with pend := s.expo.pend.filter (fun e => e.target != c.arg 0 8) } ∧
        (∀ p, (u.plate p).bufs = (s.plate p).bufs ∧ (u.plate p).front = (s.plate p).front ∧
          (e.hasExpo = false ∨ e.actions.getD p.val 0 ≠ 2 → u.plate p = s.plate p)) ∧
        Answered u v e.cmd 3 (fld (Config.freeWord s.fresh) 15 0) [] ∧ Answered v t c 0 0x0200 []))) ∧
  (∀ (s : State) (c : Cmd), s.mayStart c 0x0204 = true → ∃ t p, exec (.expoQuery c) s = .next t ∧ Answered s t c 0 0 p ∧
    leAt p 0 4 = s.expo.pend.length % 2 ^ 32) ∧
  (∀ (s : State) (c : Cmd), s.mayStart c 0x0205 = true →
    (resultOk (c.arg 0 8) 176 = false → ∃ t, exec (.admitTry c) s = .next t ∧ Answered s t c 2 0x010A []) ∧
    (resultOk (c.arg 0 8) 176 = true → s.resultRoom (c.arg 0 8) 176 = false → exec (.admitTry c) s = .next s) ∧
    (resultOk (c.arg 0 8) 176 = true → s.resultRoom (c.arg 0 8) 176 = true → ∃ t u p, exec (.admitTry c) s = .next t ∧ Answered u t c 0 0 p ∧ DramEffect s u ∧
      ∀ x, c.arg 0 8 = 0 ∨ x < c.arg 0 8 ∨ c.arg 0 8 + 176 ≤ x → t.dramByte x = s.dramByte x))

/-- A committed set with an exposure takes effect at a tick (step 3 of R51): a plate named NEW whose back buffer was READY before the tick's
clock is promoted; one that is not ready is held as it is, with E289, and E290 when it has no front buffer; a plate named neither NEW nor KEEP
leaves; every staged field outside the plates comes into force; E288, and E292 when the tick is not the target; the COMMIT completes. -/
def Obligations.DueSetTakesEffect : Prop :=
  ∀ (s : State) (k : Nat) (e : PendSet), s.canonical = true → s.up dCtrl = true → s.locked 1 = true → s.up dFab = true → s.expo.pend = [e] →
    s.dueNow k e = true → e.hasExpo = true →
    let t := s.applyDue k
    let late (p : Fin 8) : Prop := e.actions.getD p.val 0 = 2 ∧ ¬((s.plate p).back = .ready ∧ (s.plate p).readyAt < s.now)
    t.expo.pend = [] ∧ t.expo.applied = k ∧ t.evStatus 288 = true ∧ (e.target ≠ k → t.evStatus 292 = true) ∧
    ((∃ p, late p) → t.evStatus 289 = true) ∧ ((∃ p, late p ∧ (s.plate p).inForce = false) → t.evStatus 290 = true) ∧
    (∀ p : Fin 8,
      (late p → t.plate p = s.plate p ∧ t.expo.hold.getLsbD p.val = true ∧
        t.expo.transp.getLsbD p.val = (s.expo.transp.getLsbD p.val || !(s.plate p).inForce)) ∧
      (¬ late p → t.expo.hold.getLsbD p.val = false ∧ (t.plate p).bufs = (s.plate p).bufs) ∧
      (e.actions.getD p.val 0 = 2 → ¬ late p → (t.plate p).front = (s.plate p).backIx ∧
        (t.plate p).inForce = true ∧ (t.plate p).back = .closed ∧ t.expo.transp.getLsbD p.val = false) ∧
      (e.actions.getD p.val 0 = 1 → t.plate p = s.plate p) ∧
      (e.actions.getD p.val 0 ≠ 1 → e.actions.getD p.val 0 ≠ 2 → t.plate p = { s.plate p with inForce := false })) ∧
    (∀ id, id < idPlate 0 0 ∨ idPlate 8 0 ≤ id → evuReg id = false → t.reg id = s.overlay e.fields id) ∧
    (s.waits e.cmd = true → s.dk.restarting = none →
      (t.tray e.cmd.tray).held = (s.tray e.cmd.tray).held ++ [⟨s.now, e.cmd.tag, e.cmd.opcode, 0, true, 0x0200,
        padTo 24 (leBytes 8 k ++ leBytes 1 t.expo.hold.toNat ++ leBytes 1 t.expo.transp.toNat ++ leBytes 1 (b2n (decide (e.target ≠ k)))), e.cmd.index⟩])

/-- A tick arrives: it becomes the current tick. Under D = 2 a tick of odd index runs no raster step: no set takes effect, and the pending
sets, the plates, the Refocus tables, the statistics and the raster stay; any other is a raster tick, whose snapshot keeps the tick that
started the sub-frame just ended. At either kind every TICK_WAIT whose target it reaches completes with its index. With none on its way nothing
changes. -/
def Obligations.TickArrivalRunsItsSteps : Prop :=
  ∀ s : State,
    (s.tick.toArrive = [] → exec .tickArrival s = .next s) ∧
    ∀ m rest, s.tick.toArrive = m :: rest → s.up dTime = true → s.up dCtrl = true →
      ∃ t, exec .tickArrival s = .next t ∧ t.tick.toArrive = rest ∧ t.expo.tick = m.idx ∧ t.expo.ticked = true ∧
        (s.fw = true → t.dk.tickWaits = (s.dk.tickWaits.filter fun w => decide (m.idx < w.target)) ∧
          ∀ w ∈ s.dk.tickWaits, w.target ≤ m.idx → ⟨s.now, w.cmd.tag, w.cmd.opcode, 0, true, 0, padTo 24 (leBytes 8 m.idx), w.cmd.index⟩ ∈
            (t.tray w.cmd.tray).held) ∧
        (s.expo.d2 = true → m.idx % 2 = 1 → t.expo.pend = s.expo.pend ∧ t.expo.applied = s.expo.applied ∧
          t.expo.rasterTick = s.expo.rasterTick ∧ t.expo.snapSeq = s.expo.snapSeq ∧ t.plates = s.plates ∧ t.rfc = s.rfc ∧
          t.regs.live = s.regs.live ∧ t.regs.staged = s.regs.staged ∧ t.time = s.time ∧ t.pmu = s.pmu ∧ t.dmc = s.dmc ∧
          ∀ q : Fin 4, (t.easels[q]).st = (s.easels[q]).st) ∧
        (s.expo.d2 = false ∨ m.idx % 2 = 0 → t.expo.rasterTick = m.idx ∧ t.expo.snapSeq = s.expo.rasterTick ∧
          t.expo.latHold = s.expo.hold ∧ t.expo.latStop = s.expo.stop)

/-! ### Plates, the ingest aperture and the Fixers (chapters 3, 7) -/

/-- PLATE_OPEN: the payload is checked in the order of R98 and a refused PLATE_OPEN changes nothing; an accepted one leaves the back buffer
OPENING with no incomplete assembly; while FAB drains none starts. It completes once the buffer's write credits are back and its stores and its
result have their tokens: the reservation and geometry take effect, the buffer is OPEN, and no byte outside the reservation and the result area
changes; until then nothing happens. -/
def Obligations.PlateOpenReservesTheBackBuffer : Prop :=
  (∀ (s : State) (c : Cmd), s.fabClosing = true → exec (.plateOpen c) s = .next s) ∧
  (∀ (s : State) (c : Cmd), s.mayStart c 0x0301 = true → s.fabClosing = false →
    let g := openGeom c
    let p : Fin 8 := Fin.ofNat 8 (c.arg 0 1)
    let x := s.plate p
    let refused (reason : Nat) : Prop := ∃ t, exec (.plateOpen c) s = .next t ∧ Answered s t c 2 reason []
    (openFormatOk c = false → refused 0x0207) ∧
    (openFormatOk c = true → g.sizeOk = false ∨ s.placeBack p g.reserved = none → refused 0x0206) ∧
    ∀ base, openFormatOk c = true → g.sizeOk = true → s.placeBack p g.reserved = some base →
      let bad := c.arg 3 1 / 2 % 4 = 2 ∧ (x.inForce = false ∨ (s.frontBuf p).geom ≠ some g)
      let busy := s.pendingNew p = true ∨ x.back = .opening
      (bad → refused 0x0207) ∧ (¬ bad → busy → refused 0x020D) ∧ (¬ bad → ¬ busy → resultOk (c.arg 0x10 8) 64 = false → refused 0x010A) ∧
      (¬ bad → ¬ busy → resultOk (c.arg 0x10 8) 64 = true → ∃ t, exec (.plateOpen c) s = .next t ∧
        t.plates = s.plates.set p { x with back := .opening, opening := some ⟨c, g, c.arg 3 1 / 2 % 4, base, g.reserved⟩ } ∧
        (∀ f : Fin 8, ∀ b ∈ (t.fixers[f]).blks, b.ofBuf p x.backIx = true → b.filling = false) ∧
        (∀ a, t.dramByte a = s.dramByte a) ∧
        EventEffect { s with plates := t.plates, fixers := t.fixers, dk := { s.dk with started := s.dk.started ++ [c] }
                             regs := { s.regs with ctrs := t.regs.ctrs }, dmc := t.dmc, pools := t.pools } t)) ∧
  ∀ (s : State) (p : Fin 8) (o : Opening), s.canonical = true → (s.plate p).opening = some o → o.size = o.geom.reserved →
    (o.init = 2 → (s.frontBuf p).geom = some o.geom) → s.fw = true → s.fabRuns = true → s.dmcRuns = true →
    let moves := ¬ (o.init = 0 ∧ (s.back p).geom = some o.geom ∧ (s.back p).hasData = true)
    let ready := moves → (∀ pl ∈ o.geom.place o.base, s.planeFree pl = true) ∧
      (o.init = 2 → ∀ pl ∈ (s.frontBuf p).planes, s.planeRoom .fixer pl = true)
    (0 < (s.back p).credits ∨ s.resultRoom (o.cmd.arg 0x10 8) 64 = false ∨ ¬ ready → exec (.plateOpenDone p) s = .next s) ∧
    ((s.back p).credits = 0 → s.resultRoom (o.cmd.arg 0x10 8) 64 = true → ready → (∀ f : Fin 8, ∀ b ∈ (s.fixers[f]).blks, b.ofBuf p (s.plate p).backIx = false) →
      (∀ x : Fin 2, ∀ j ∈ (s.contact.qs[x]).jobs, j.complete = true) → s.waits o.cmd = true →
      ∃ t u, exec (.plateOpenDone p) s = .next t ∧ (t.plate p).back = .opened ∧ (t.plate p).opening = none ∧
        (t.plate p).front = (s.plate p).front ∧ (t.plate p).inForce = (s.plate p).inForce ∧ t.frontBuf p = s.frontBuf p ∧
        (t.back p).geom = some o.geom ∧ (t.back p).base = o.base ∧ (t.back p).size = o.size ∧ (t.back p).credits = 0 ∧
        (∀ q, q ≠ p → t.plate q = s.plate q) ∧
        DramEffect { s with plates := t.plates } u ∧
        Answered u t o.cmd 0 0 (leBytes 8 o.size ++ leBytes 1 (planeMask (o.geom.place o.base))) ∧
        ∀ a, a < o.base ∨ o.base + o.size ≤ a → o.cmd.arg 0x10 8 = 0 ∨ a < o.cmd.arg 0x10 8 ∨ o.cmd.arg 0x10 8 + 64 ≤ a →
          t.dramByte a = s.dramByte a)

/-- PLATE_SEAL flushes the buffer's incomplete assemblies and makes an OPEN buffer SEALED, or READY at once with E297 when nothing is in
flight on it; PLATE_INFO reads one slot and changes nothing; YTC_LOAD takes one write credit of its plate, for which it waits when all are in
flight, and refuses a range outside the host area and a target that is not there. -/
def Obligations.PlatesAreSealedReadAndLoaded : Prop :=
  ∀ (s : State) (c : Cmd),
    (s.mayStart c 0x0302 = true → (8 ≤ c.arg 0 1 → ∃ t, exec (.plateSeal c) s = .next t ∧ Answered s t c 2 0x0207 []) ∧
      ∀ p : Fin 8, c.arg 0 1 = p.val →
        ((s.plate p).back ≠ .opened → ∃ t, exec (.plateSeal c) s = .next t ∧ Answered s t c 2 0x020F []) ∧
        ((s.plate p).back = .opened → ∃ t u, exec (.plateSeal c) s = .next t ∧ Answered u t c 0 0 [] ∧
          EventEffect { s with plates := u.plates, fixers := u.fixers, regs := { s.regs with ctrs := u.regs.ctrs }
                               dmc := u.dmc, pools := u.pools } u ∧ (∀ a, t.dramByte a = s.dramByte a) ∧
          (∀ q, q ≠ p → u.plate q = s.plate q) ∧ (u.plate p).bufs = (s.plate p).bufs ∧ (u.plate p).front = (s.plate p).front ∧
          (∀ f : Fin 8, ∀ b ∈ (u.fixers[f]).blks, b.ofBuf p (s.plate p).backIx = true → b.filling = false) ∧
          let clear := (s.back p).credits = 0 ∧ ∀ f : Fin 8, ∀ b ∈ (s.fixers[f]).blks, b.ofBuf p (s.plate p).backIx = false
          (clear → (u.plate p).back = .ready ∧ (s.canonical = true → s.up dFab = true → u.evStatus 297 = true)) ∧
          (¬ clear → (u.plate p).back = .sealed))) ∧
    (s.mayStart c 0x0303 = true →
      (8 ≤ c.arg 0 1 ∨ 4 < c.arg 1 1 → ∃ t, exec (.plateInfo c) s = .next t ∧ Answered s t c 2 0x0207 []) ∧
      (c.arg 0 1 < 8 → c.arg 1 1 = 0 → ∃ t p, exec (.plateInfo c) s = .next t ∧ Answered s t c 0 0 p ∧
        leAt p 0 4 = (s.plateStatus (Fin.ofNat 8 (c.arg 0 1))).toNat) ∧
      (∀ pl, c.arg 0 1 < 8 → 1 ≤ c.arg 1 1 → c.arg 1 1 ≤ 4 → (s.plate (Fin.ofNat 8 (c.arg 0 1))).back ≠ .closed →
        (s.back (Fin.ofNat 8 (c.arg 0 1))).plane (c.arg 1 1 - 1) = some pl → ∃ t, exec (.plateInfo c) s = .next t ∧
        Answered s t c 0 0 (leBytes 8 pl.addr ++ leBytes 8 (512 * pl.blocks) ++ leBytes 1 (layoutCode pl.lay)))) ∧
    (s.mayStart c 0x0304 = true → s.fabRuns = true → s.fabClosing = false →
      (hostRange (c.arg 0 8) (c.arg 8 4) = false → ∃ t, exec (.ytcLoad c) s = .next t ∧ Answered s t c 2 0x010A []) ∧
      (hostRange (c.arg 0 8) (c.arg 8 4) = true → s.ytcTarget c = none →
        ∃ t, exec (.ytcLoad c) s = .next t ∧ Answered s t c 2 0x0303 []) ∧
      ∀ p pl, hostRange (c.arg 0 8) (c.arg 8 4) = true → s.ytcTarget c = some (.plate p pl) →
        (65535 ≤ (s.back p).credits → exec (.ytcLoad c) s = .next s) ∧
        ((s.back p).credits < 65535 → ∃ t, exec (.ytcLoad c) s = .next t ∧ (t.back p).credits = (s.back p).credits + 1 ∧ (∀ q, q ≠ p → t.plate q = s.plate q) ∧
          t.dk = { s.dk with started := s.dk.started ++ [c] } ∧ t = { s with dk := t.dk, plates := t.plates, pools := t.pools }))

/-- A waiting aperture write: one that finds no reservation, or no active mode, is unsupported; into a front buffer or one that is not OPEN
it is dropped, counted in SEALED_DROP and raises E293; outside every plane it is dropped and counted in OOB_DROP. Into a block with an
assembly it joins it; without one it takes one Fixer slot and one write credit when there are such, and waits when there are none; when
all 32 slots hold incomplete assemblies the oldest is flushed. -/
def Obligations.ApertureWritesAssembleOrWait : Prop :=
  ∀ (s : State) (m : Fin 2) (x : Ist) (slots : Bool), s.canonical = true → s.up dCtrl = true → s.locked 1 = true →
    (s.ucie[m]).waiting = [(x, slots)] → x.m = m → istType x = 1 → istSpace x = 1 → x.data.length = istLen x →
    let a := istAddr x
    let bytes := x.data
    let gone (t : State) : Prop := exec (.apertureSlotTaken m) s = .next t ∧ (t.ucie[m]).waiting = [] ∧
      (t.ucie[m]).freed = (if slots then (s.ucie[m]).freed.set 0 ((s.ucie[m]).freed[0] + istSlots x) else (s.ucie[m]).freed) ∧ ∀ k : Fin 2, k ≠ m → t.ucie[k] = s.ucie[k]
    let dropped (id : Nat) (ev : Nat) : Prop := ∃ t, gone t ∧ t.ctr id = (s.ctr id + 1) % 2 ^ 64 ∧
      (s.up (srcDomain ev) = true → t.evStatus ev = true) ∧
      EventEffect { s with ucie := t.ucie, regs := { s.regs with ctrs := t.regs.ctrs } } t
    (s.active = false ∨ (inHost a bytes.length = false ∧ s.poolHit a = .outside) → dropped (idUr m.val) (72 + m.val)) ∧
    (s.active = true → inHost a bytes.length = false →
      (∀ p, s.poolHit a = .frontOf p ∨ s.poolHit a = .notOpen p → dropped (idPlate p.val 0x0D) 293) ∧
      (∀ p, s.poolHit a = .oob p → dropped (idPlate p.val 0x0F) 296) ∧
      ∀ p i pl blk off, s.poolHit a = .plane p i pl blk off → s.fabRuns = true → s.fabClosing = false →
        let addr := pl.addr + 512 * blk
        let f := fixerOf addr
        let blks := (s.fixers[f]).blks
        let held := blks.filter FixBlk.holds
        (∀ k b, blks.findIdx? (fun b => b.filling && b.addr == addr) = some k → blks[k]? = some b →
          ∃ t, gone t ∧ (t.fixers[f]).blks = putAssembly blks k (b.write off bytes) ∧ t = { s with fixers := t.fixers, ucie := t.ucie }) ∧
        ((∀ b ∈ blks, ¬ (b.filling = true ∧ b.addr = addr)) →
          (held.length < 32 → s.occupancy 24 < 256 → (s.buf p i).credits < 65535 →
            ∃ t b, gone t ∧ (t.fixers[f]).blks = blks ++ [b] ∧ b.addr = addr ∧ b.slot = p ∧ b.buf = i ∧ b.mask = spanMask off bytes.length ∧
              b.raw = putBytes (List.replicate 512 0) off bytes ∧ (t.buf p i).credits = (s.buf p i).credits + 1 ∧
              t.pool 24 = { s.pool 24 with issued := ((s.pool 24).issued + 1) % 2 ^ 64 } ∧ t.occupancy 24 = s.occupancy 24 + 1 ∧
              t = { s with fixers := t.fixers, plates := t.plates, pools := t.pools, ucie := t.ucie }) ∧
          (held.length < 32 → 256 ≤ s.occupancy 24 ∨ 65535 ≤ (s.buf p i).credits → exec (.apertureSlotTaken m) s = .next s) ∧
          (32 ≤ held.length → (∃ b ∈ held, b.filling = false) → exec (.apertureSlotTaken m) s = .next s) ∧
          (32 ≤ held.length → (∀ b ∈ held, b.filling = true) →
            ∃ t, exec (.apertureSlotTaken m) s = .next t ∧ t.ucie = s.ucie ∧ t.plates = s.plates ∧
              (t.fixers[f]).blks.length = blks.length ∧ (∃ b ∈ (t.fixers[f]).blks, b.stage = .flushed ∨ b.stage = .merging) ∧
              t.evStatus 295 = true ∧ ∀ a, t.dramByte a = s.dramByte a)))

/-- A Fixer codes its oldest complete block, or one whose partial bytes it has read, and asks for the tokens of its two stores; hands it on
when both class BE tokens are there and then returns its slot; the two stores retired, slot bytes and entry stand in the banks; and when
all its requests have retired its tile's flags follow, the write credit returns, and a sealed buffer becomes READY with its last credit. -/
def Obligations.FixersCodeHandOnAndStore : Prop :=
  (∀ (s : State) (f : Fin 8) (b : FixBlk) (rest : List FixBlk), s.canonical = true → s.fabRuns = true → (s.fixers[f]).blks = b :: rest →
    (∀ upset, b.stage = .complete →
      let c := codeBlock b.lay (s.reg (idFxCtrl f.val)) (nextK0 b.lay (s.fixers[f]).ends[(Fin.ofNat 7 (layoutCode b.lay) : Fin 7)]) b.raw upset
      let fl := alphaFlags b.lay b.alpha b.raw
      let e := mkEntry c.mode (c.stored.length / 32 - 1) fl.1 fl.2 c.fb
      ∃ t, exec (.fixerCodeBlock f upset) s = .next t ∧ (t.fixers[f]).blks = { b with stage := .coded c e } :: rest ∧
        (∀ g : Fin 8, g ≠ f → t.fixers[g] = s.fixers[g]) ∧ (∀ a, t.dramByte a = s.dramByte a) ∧
        (∃ d ∈ (t.pc (pcOf b.addr)).waiting, d.req = b.slotStore c ∧ d.owner = some b.tag ∧ d.cls = .be) ∧
        (∃ d ∈ (t.pc (pcOf b.entAddr)).waiting, d.req = b.entryStore e ∧ d.owner = some b.tag ∧ d.cls = .be) ∧
        EventEffect { s with fixers := t.fixers, dmc := t.dmc, regs := { s.regs with ctrs := t.regs.ctrs } } t ∧
        (c.mismatch = true → t.ctr (idFxCtr f.val 5) = (s.ctr (idFxCtr f.val 5) + 1) % 2 ^ 64 ∧
          (s.up dCtrl = true → s.locked 1 = true → t.evStatus 320 = true))) ∧
    (∀ upset, b.stage = .merging → s.reqsLeft b.tag = false →
      ∃ (t : State) (d : FixBlk) (c : Coded) (e : Nat), exec (.fixerCodeBlock f upset) s = .next t ∧ (t.fixers[f]).blks = { d with stage := .coded c e } :: rest ∧
        d.addr = b.addr ∧ (∀ k, k < 512 → byteAt d.raw k =
          if b.mask.testBit k then byteAt b.raw k else byteAt (s.readBlk b.lay b.alpha b.addr b.entAddr).orZero k) ∧
        ∀ a, t.dramByte a = s.dramByte a) ∧
    (∀ c e, b.stage = .coded c e → s.dmcRuns = true → ∀ u, s.grantPair b c e = some u →
      ∃ t, exec (.fixerTokensGranted f) s = .next t ∧ (t.fixers[f]).blks = { b with stage := .handed c e } :: rest ∧
        t.pool 24 = { s.pool 24 with returned := ((s.pool 24).returned + 1) % 2 ^ 64 } ∧ (∀ a, t.dramByte a = s.dramByte a) ∧
        t = { s with fixers := t.fixers, pools := t.pools, dmc := t.dmc }) ∧
    (∀ c e, b.stage = .handed c e → s.reqsLeft b.tag = false →
      ∃ t, exec (.fixerStoreRetired f) s = .next t ∧ (t.fixers[f]).blks.map FixBlk.tag = rest.map FixBlk.tag ∧
        (t.buf b.slot b.buf).credits = (s.buf b.slot b.buf).credits - 1 ∧ (∀ q, q ≠ b.slot → t.plate q = s.plate q) ∧
        t.ctr (idFxCtr f.val 0) = (s.ctr (idFxCtr f.val 0) + 1) % 2 ^ 64 ∧ (∀ a, t.dramByte a = s.dramByte a) ∧
        EventEffect { s with fixers := t.fixers, plates := t.plates, dmc := t.dmc, pools := t.pools
                             regs := { s.regs with ctrs := t.regs.ctrs } } t ∧
        ((s.plate b.slot).back = .sealed → b.buf = (s.plate b.slot).backIx → (s.back b.slot).credits = 1 →
          (∀ g : Fin 8, ∀ d ∈ (t.fixers[g]).blks, d.ofBuf b.slot b.buf = false) → (t.plate b.slot).back = .ready))) ∧
  (∀ (s : State) (b : FixBlk) (c : Coded) (e : Nat) (d1 d2 : DReq),
    let p1 := pcOf b.addr
    let p2 := pcOf (b.entryStore e).addr
    p1 ≠ p2 → (s.pc p1).turn .be = some d1 → d1.owner = some b.tag → (s.pc p2).turn .be = some d2 → d2.owner = some b.tag →
    ((s.pc p1).tokenFor .be).isSome = true → ((s.pc p2).tokenFor .be).isSome = true →
    ∃ u, s.grantPair b c e = some u ∧ (∀ k, k = 22 ∨ k = 23 → u.pool k = { s.pool k with issued := ((s.pool k).issued + 2) % 2 ^ 64 }) ∧
      (∃ d ∈ (u.pc p1).queued, d.num = d1.num ∧ d.req = d1.req) ∧ ∃ d ∈ (u.pc p2).queued, d.num = d2.num ∧ d.req = d2.req) ∧
  ∀ (s : State) (pc : Fin 64) (r : DReq) (tag : Nat) (u : StoreUnit), s.dmcRuns = true → s.canonical = true →
    ((s.pc pc).queued.find? fun e => e.num == r.num) = some r → r.issued = true → r.owner = some tag → r.unit = some u →
    (s.setPc pc { s.pc pc with queued := (s.pc pc).queued.erase r }).storesLeft tag = false →
    u.addr + u.stored.length ≤ u.ent → u.entry < 2 ^ 16 →
    ∃ t, exec (.dramRetire pc r.num .clean) s = .next t ∧
      (∀ (i : Nat) (h : i < u.stored.length), t.dramByte (u.addr + i) = u.stored[i]) ∧ t.entryAt u.ent = u.entry ∧
      ∀ a, (a < u.addr ∨ u.addr + u.stored.length ≤ a) → (a < u.ent ∨ u.ent + 2 ≤ a) → t.dramByte a = s.dramByte a

/-- Whatever its data, layout, adaptation state, Fixer control and upsets: the form in which a Fixer stores a block takes at most 512 bytes
and decodes under its entry to the 512 raw bytes. FB marks exactly the blocks that failed verification; they are stored RAW and counted as
fallbacks, as is a PRED result of 16 units or more; FORCE_RAW and a lack of predictors are not. -/
def Obligations.StoredBlocksDecodeExactly : Prop :=
  ∀ (l : YLayout) (ctrl : Word) (k0 : List Nat) (raw : List Byte) (upset alpha : Bool), raw.length = 512 →
    let c := codeBlock l ctrl k0 raw upset
    let fl := alphaFlags l alpha raw
    let e := mkEntry c.mode (c.stored.length / 32 - 1) fl.1 fl.2 c.fb
    decodeStored l e c.stored = some raw ∧ c.stored.length ≤ 512 ∧ c.stored.length % 32 = 0 ∧ c.fb = c.mismatch ∧
    (c.mismatch = true → c.mode = 0 ∧ c.fallback = true) ∧ (c.fallback = true → c.mode = 0) ∧
    (upset = true → c.mode = 0) ∧ (bit ctrl 4 = true → c.mode = 0 ∧ c.fallback = false) ∧
    (bit ctrl 0 = false → bit ctrl 1 = false → bit ctrl 2 = false → bit ctrl 3 = false → c.mode = 0 ∧ c.fallback = false)

/-! ### The raster of a quadrant (chapters 5, 6, 8, 9) -/

/-- An evaluation of the lead moves the urgency state by the table of R243: it falls at once, rises only past the hysteresis, and a LOW at
or below PANIC counts as PANIC + 1; a run of evaluations with the same lead and watermarks settles after the first. STRIP_DELIVERED makes the
evaluation when it completes a hogel row, LINE_PERIOD_START at every line period of a sub-frame that goes on: each leaves the lead of the new
state and the urgency that the table gives for it. -/
def Obligations.UrgencyFollowsTheWatermarks : Prop :=
  (∀ (s : State) (n : Fin 96) (q : Fin 4) x, q.val = n.val / 24 → (s.easels[q]).strips.find? (fun x => x.engine == some n.val) = some x →
    s.engineTakes n.val = true → s.easelRuns q = true → (s.easels[q]).st = .running →
    ∃ t, exec (.stripDelivered n) s = .next t ∧
      (mapFind (t.easels[q]).rows x.row = some (2 ^ s.qw - 1) →
        (t.easels[q]).lead = (min (t.leadOf q) 255).toNat ∧
        (t.easels[q]).urg = urgencyStep (s.reg (idWm q.val)) (t.leadOf q) (s.easels[q]).urg) ∧
      (mapFind (t.easels[q]).rows x.row ≠ some (2 ^ s.qw - 1) →
        (t.easels[q]).lead = (s.easels[q]).lead ∧ (t.easels[q]).urg = (s.easels[q]).urg)) ∧
  (∀ (s : State) (q : Fin 4), s.easelRuns q = true → (s.easels[q]).st = .running → s.periodDue q ((s.easels[q]).period + 1) = true →
    (s.easels[q]).period + 1 < s.lt →
    ∃ t, exec (.linePeriodStart q) s = .next t ∧ ((t.easels[q]).st = .running →
      (t.easels[q]).lead = (min (t.leadOf q) 255).toNat ∧
      (t.easels[q]).urg = urgencyStep (s.reg (idWm q.val)) (t.leadOf q) (s.easels[q]).urg)) ∧
  ∀ (wm : Word) (lead : Int),
    let p : Int := (fld wm 7 0 : Nat)
    let l : Int := (max (fld wm 15 8) (fld wm 7 0 + 1) : Nat)
    let y : Int := (fld wm 19 16 : Nat)
    (∀ u, lead < p → urgencyStep wm lead u = .panic) ∧
    (p ≤ lead → lead < l → urgencyStep wm lead .normal = .urgent) ∧ (l ≤ lead → urgencyStep wm lead .normal = .normal) ∧
    (p ≤ lead → lead < l + y → urgencyStep wm lead .urgent = .urgent) ∧ (∀ u, l + y ≤ lead → urgencyStep wm lead u = .normal) ∧
    (lead < p + y → lead < l + y → urgencyStep wm lead .panic = .panic) ∧
    (p + y ≤ lead → lead < l + y → urgencyStep wm lead .panic = .urgent) ∧
    ∀ u, urgencyStep wm lead (urgencyStep wm lead u) = urgencyStep wm lead u

/-- A line period starts only when due. In the tail the gate pins are off; an active line is sent, with its ALIGN row and its packets striped
over the used lanes, and its gate clock; a line whose hogel row is incomplete at its correction start is a STRIP_LATE underrun, and one
that a port cannot send a LINK underrun: counted, reported, its strips and their tokens abandoned. After a STRIP_LATE the lines before it
are still sent, then the abort message goes in place of that line, then ALIGN rows alone. Other quadrants do not change. -/
def Obligations.LinePeriodsSendOrAbort : Prop :=
  ∀ (s : State) (q : Fin 4), s.canonical = true → s.easelRuns q = true →
    let e := s.easels[q]
    let n := e.period + 1
    let vb := s.vblank
    let h := 16 * s.qh
    let up := (s.ports[q]).st = .up
    let full (r : Nat) : Prop := mapFind e.rows r = some (2 ^ s.qw - 1)
    let p0 := (s.ports[q]).catchUp s.now (e.st == .idle || decide (s.lt ≤ e.period)) s.lt
    let underrun (t : State) : Prop := (t.easels[q]).st = .aborted ∧ (t.easels[q]).strips = [] ∧ (t.easels[q]).rows = [] ∧
      t.ctr (idUnderruns q.val) = (s.ctr (idUnderruns q.val) + 1) % 2 ^ 64 ∧
      (t.pool (33 + q.val)).returned = ((s.pool (33 + q.val)).returned + e.strips.length) % 2 ^ 64 ∧
      (s.up dCtrl = true → s.locked 1 = true → t.evStatus (352 + 16 * q.val) = true)
    (s.periodDue q n = false ∨ s.lt < n → exec (.linePeriodStart q) s = .next s) ∧
    (s.periodDue q n = true → n ≤ s.lt → e.st = .idle → exec (.linePeriodStart q) s = .next (s.linkFill q)) ∧
    (s.periodDue q n = true → n ≤ s.lt → e.st ≠ .idle → ∃ t, exec (.linePeriodStart q) s = .next t ∧ t.plates = s.plates ∧
      t.expo = s.expo ∧ t.time = s.time ∧ t.panel = s.panel ∧ t.trays = s.trays ∧ (t.easels[q]).period = n ∧
      (∀ z : Fin 4, z ≠ q → t.easels[z] = s.easels[z] ∧ t.ports[z] = s.ports[z]) ∧
      (e.st = .running → n = s.lt → t.easels[q] = { e with period := n, gck := 0, gsp := (n + 1 == vb), goe := true } ∧
        t = { s with easels := t.easels, ports := t.ports }) ∧
      (e.st = .running → n < s.lt → n + 2 < vb → (t.easels[q]).st = .running ∧ (t.easels[q]).gck = 0 ∧ t.dmc.mem = s.dmc.mem ∧
        (up → t.ports[q] = p0.period n [])) ∧
      (e.st = .running → n < s.lt → vb ≤ n → h ≤ n + 2 - vb → up →
        (t.easels[q]).st = .running ∧ (t.easels[q]).gck = BitVec.ofNat 4 (2 ^ ((n - vb) % 4)) ∧
        (t.easels[q]).goe = false ∧ (t.easels[q]).rows = e.rows ∧ (t.easels[q]).strips = e.strips ∧ t.dmc.mem = s.dmc.mem ∧
        (t.ports[q]).lanes = p0.lanes ∧ (t.ports[q]).due = (p0.period n (s.lineBlks q (n - vb) (s.ports[q]).seq)).due ∧
        (t.ports[q]).seq = ((s.ports[q]).seq + s.qw) % 256) ∧
      (e.st = .running → n < s.lt → vb ≤ n + 2 → n + 2 - vb < h → n < vb ∨ up → full ((n + 2 - vb) / 16) →
        (t.easels[q]).st = .running ∧ (t.easels[q]).corrected = n + 3 - vb ∧ (t.easels[q]).strips = e.strips) ∧
      (e.st = .running → n < s.lt → vb ≤ n + 2 → n + 2 - vb < h → n < vb ∨ up → ¬ full ((n + 2 - vb) / 16) →
        underrun t ∧ (t.easels[q]).abort = some (n + 2 - vb, 1) ∧ (vb ≤ n ∨ n + 2 = vb → (t.easels[q]).corrected = n + 2 - vb)) ∧
      (e.st = .running → n < s.lt → vb ≤ n → ¬ up →
        underrun t ∧ (t.easels[q]).abort = none ∧ (t.easels[q]).goe = true ∧ (t.easels[q]).corrected = s.sendable q (n - vb) ∧
        t.ports = (s.linkFill q).ports) ∧
      (∀ y c, e.st = .aborted → e.abort = some (y, c) → (n < vb ∨ up → t = { s with easels := t.easels, ports := t.ports }) ∧
        (n < vb → (t.easels[q]).abort = some (y, c)) ∧
        (vb ≤ n → ¬ up → (t.easels[q]).abort = none ∧ (t.easels[q]).goe = true ∧ (t.easels[q]).gck = 0 ∧
          (t.easels[q]).corrected = min e.corrected (s.sendable q (n - vb)) ∧ t.ports = (s.linkFill q).ports) ∧
        (vb ≤ n → up → n - vb < y → (t.easels[q]).abort = some (y, c) ∧ (t.easels[q]).goe = false ∧
          (t.easels[q]).gck = BitVec.ofNat 4 (2 ^ ((n - vb) % 4))) ∧
        (vb ≤ n → up → y ≤ n - vb → (t.easels[q]).abort = none ∧ (t.easels[q]).goe = true ∧ (t.easels[q]).gck = 0)) ∧
      (e.st = .aborted → e.abort = none → t = { s with easels := t.easels, ports := t.ports } ∧ (t.easels[q]).abort = none ∧
        (t.easels[q]).gck = e.gck ∧ (n < s.lt → up → t.ports[q] = p0.period n [])))

/-- Strips: Mask gives the oldest undecided strip its marks, one per plate of the blend list, and none while its three enables are 0;
dispatch hands the oldest decided one to an engine of the quadrant that holds fewer than two; a delivery returns the token and completes
the strip's part of its hogel row. None of this touches a plate, memory or another quadrant's Easel. -/
def Obligations.StripsAreCulledDispatchedAndDelivered : Prop :=
  ∀ (s : State) (q : Fin 4),
    (∀ pre x post, s.maskRuns = true → (s.easels[q]).st = .running → (s.easels[q]).strips = pre ++ x :: post →
      (∀ p ∈ pre, p.marks ≠ none) → x.marks = none →
      ∃ t marks, exec (.skipList q) s = .next t ∧ t = { s with easels := t.easels, regs := { s.regs with live := t.regs.live, clock := t.regs.clock } } ∧
        (t.easels[q]).strips = pre ++ { x with marks := some marks } :: post ∧ marks.length = s.blendNow.length ∧ (∀ m ∈ marks, m ≤ 3) ∧
        (fld (s.reg (idMaskCtrl q.val)) 2 0 = 0 → ∀ m ∈ marks, m = 0) ∧ (t.easels[q]).buf = (s.easels[q]).buf ∧
        (∀ z : Fin 4, z ≠ q → t.easels[z] = s.easels[z]) ∧
        (mapWf (fun _ => 0) s.regs.live = true → t.live (idMaskStrips q.val) = min (s.live (idMaskStrips q.val) + 1) (2 ^ 48 - 1))) ∧
    (∀ pre x post, s.maskRuns = true → (s.easels[q]).st = .running → (s.easels[q]).strips = pre ++ x :: post →
      (∀ p ∈ pre, p.marks = none ∨ p.engine ≠ none) → x.marks ≠ none → x.engine = none →
      let free (k : Nat) : Prop := k / 24 = q.val ∧ s.engineTakes k = true ∧
        ((s.easels[q]).strips.filter fun x => x.engine == some k).length < 2
      ((∃ k, free k) → ∃ t k, exec (.stripDispatch q) s = .next t ∧ free k ∧ t = { s with easels := t.easels } ∧
        t.easels[q] = { s.easels[q] with strips := pre ++ { x with engine := some k } :: post, lastEngine := k % 24 } ∧
        ∀ z : Fin 4, z ≠ q → t.easels[z] = s.easels[z]) ∧
      ((∀ k, ¬ free k) → exec (.stripDispatch q) s = .next s)) ∧
    ∀ (k : Fin 96) x, k.val / 24 = q.val → (s.easels[q]).strips.find? (fun x => x.engine == some k.val) = some x →
      s.engineTakes k.val = true → s.easelRuns q = true → (s.easels[q]).st = .running →
      ∃ t, exec (.stripDelivered k) s = .next t ∧ (t.easels[q]).strips = (s.easels[q]).strips.erase x ∧
        (t.easels[q]).rows = (s.easels[q]).rows.map (fun r => if r.1 = x.row then (r.1, r.2 ||| 2 ^ x.m) else r) ∧
        t.pool (33 + q.val) = { s.pool (33 + q.val) with returned := ((s.pool (33 + q.val)).returned + 1) % 2 ^ 64 } ∧ t.plates = s.plates ∧ t.dmc.mem = s.dmc.mem ∧
        t.expo = s.expo ∧ (∀ id, evuReg id = false → t.reg id = s.reg id) ∧ ∀ z : Fin 4, z ≠ q → t.easels[z] = s.easels[z]

/-- A line whose last packet has been sent returns its line-buffer line, and with 16 free the next hogel row is allocated with its strip
tokens; with every row allocated, or after an abort, none is. An engine fetches a block that one of its strips needs and its texel cache does
not hold: a block that can be delivered goes into the caches, one that cannot is counted and reported, and nothing else changes. -/
def Obligations.SentLinesReturnAndFetchesReport : Prop :=
  (∀ (s : State) (q : Fin 4), s.easelRuns q = true → (s.easels[q]).st ≠ .idle →
    let e := s.easels[q]
    let held := 16 * e.nextRow - (e.sentLines + 1)
    (s.linesOut q ≤ e.sentLines ∨ s.lineOut q e.sentLines = false → exec (.lineSent q) s = .next s) ∧
    (e.sentLines < s.linesOut q → s.lineOut q e.sentLines = true → ∃ t, exec (.lineSent q) s = .next t ∧ (t.easels[q]).sentLines = e.sentLines + 1 ∧
      t.plates = s.plates ∧ (∀ z : Fin 4, z ≠ q → t.easels[z] = s.easels[z]) ∧
      (e.st = .aborted ∨ s.qh ≤ e.nextRow ∨ 48 < held →
        t.pool (37 + q.val) = { s.pool (37 + q.val) with returned := ((s.pool (37 + q.val)).returned + 1) % 2 ^ 64 } ∧
        t.pool (33 + q.val) = s.pool (33 + q.val) ∧ (t.easels[q]).nextRow = e.nextRow ∧ (t.easels[q]).strips = e.strips) ∧
      (e.st = .running → e.nextRow < s.qh → held ≤ 48 →
        t.pool (37 + q.val) = { s.pool (37 + q.val) with returned := ((s.pool (37 + q.val)).returned + 1) % 2 ^ 64
                                                         issued := ((s.pool (37 + q.val)).issued + 16) % 2 ^ 64 } ∧
        t.pool (33 + q.val) = { s.pool (33 + q.val) with issued := ((s.pool (33 + q.val)).issued + s.qw) % 2 ^ 64 } ∧
        (t.easels[q]).nextRow = e.nextRow + 1 ∧
        (t.easels[q]).strips = e.strips ++ (List.range s.qw).map fun m => ⟨e.nextRow, m, none, none, []⟩))) ∧
  ∀ (s : State) (n : Fin 96) (p : PlaneRef) (blk : Nat) (pl : Plane) (q : Fin 4) (c : Fin 12), s.canonical = true →
    q.val = n.val / 24 → c.val = n.val / 8 → s.fetchPlane p = some pl →
    let a := pl.addr + 512 * blk
    let ent := pl.ent + 2 * blk
    let held := (s.caches.texels[n]).any fun l => l.1 == a
    let room := s.room (.fetch q) (ent / 64 * 64) 64 && s.room (.fetch q) a (s.slotLen ent)
    (s.fetchFor n p blk = none ∨ held = true ∨ room = false → exec (.developerFetch n p blk) s = .next s) ∧
    ∀ x, s.fetchFor n p blk = some x → held = false → s.up (dEc c.val) = true → s.locked 4 = true → room = true →
      ∃ t, exec (.developerFetch n p blk) s = .next t ∧ t.easels = s.easels.set q ((s.easels[q]).fetchedBy x a) ∧
        let u := ({ s with easels := t.easels }).devRead (.fetch q) a ent
        (∀ b, t.dramByte b = s.dramByte b) ∧
        (s.badBeats (ent / 64 * 64) 64 = [] → s.badBeats a (s.slotLen ent) = [] → (∃ b, s.readPlane pl blk = .bytes b) →
          t = { s with easels := t.easels, caches := t.caches, fresh := t.fresh, dmc := u.dmc, pools := u.pools
                       regs := { s.regs with live := u.regs.live, clock := u.regs.clock } } ∧
          (((s.caches.texels[n]).map Prod.snd).sum + texelBytes p pl ≤ 262144 →
            t.caches.texels[n] = (a, texelBytes p pl) :: s.caches.texels[n]) ∧
          ∀ k : Fin 96, k ≠ n → t.caches.texels[k] = s.caches.texels[k]) ∧
        (s.badBeats (ent / 64 * 64) 64 = [] → s.badBeats a (s.slotLen ent) = [] → s.readPlane pl blk = .invalid →
          EventEffect (u.addCtr (idDevInvalid c.val) 1) t ∧
          t.ctr (idDevInvalid c.val) = (s.ctr (idDevInvalid c.val) + 1) % 2 ^ 64 ∧
          (s.up dCtrl = true → s.locked 1 = true → s.up dFab = true → t.evStatus 321 = true)) ∧
        (s.readPlane pl blk = .uncorr →
          EventEffect (u.addCtr (idDevUncorr c.val) 1) t ∧
          t.ctr (idDevUncorr c.val) = (s.ctr (idDevUncorr c.val) + 1) % 2 ^ 64 ∧
          (s.up dCtrl = true → s.locked 1 = true → s.up dFab = true → t.evStatus 322 = true))

/-! ### The picture (chapters 5 and 8, and Loupe) -/

/-- The picture's way through an Easel. A delivered strip paints each of its pixels, in FLAT the 256 pixels of each of its hogels, with the
composite of that pixel's ray along the blend list, a solid pattern with its colour, and counts the samples; a plate that Mask marked
leaves no sample. A line whose correction starts takes each channel of each of its pixels through stages 1 to 5 of the correction, keeps the new
store byte, and goes into the CRC of every checked Loupe rectangle that it meets. The end of a raster sub-frame latches the CRCs of the
rectangles that were sent whole, compares them, and reports. A raster tick evaluates the temperature band: at the first sub-frame it is the
table's (with DWELL = 1, log entry 145), it moves only after four sub-frames in a band, down only when a whole degree below the bound, and the
old band lasts two sub-frames. -/
def Obligations.StripsLinesLoupeAndBands : Prop :=
  (∀ (s : State) (n : Fin 96) (q : Fin 4) (c : Fin 12) (x : Strip), s.canonical = true → q.val = n.val / 24 → c.val = n.val / 8 →
    (s.easels[q]).strips.find? (fun x => x.engine == some n.val) = some x → s.engineTakes n.val = true → s.easelRuns q = true →
    (s.easels[q]).st = .running →
    let e := s.easels[q]
    let px (i : Nat) := quadRight q * 512 * s.qw + i
    let py (j : Nat) := quadBelow q * 16 * s.qh + j
    let ray (i j : Nat) : Ray := if s.flatNow then s.rayAtFlat c (px i / 16) (py j / 16) else s.rayAt c e.steer (px i) (py j)
    let comp (i j : Nat) : Comp := s.compositeAt q (x.marks.getD []) (ray i j)
    let pixel (t : State) (i j : Nat) : Rgba := mapGet (fun _ => rgba0) (t.easels[q]).buf (pixKey (16 * x.row + j) (512 * x.m + i))
    ∃ t, exec (.stripDelivered n) s = .next t ∧
      (∀ i j, i < 512 → j < 16 → s.patterned q = false → pixel t i j = (comp (512 * x.m + i) (16 * x.row + j)).c) ∧
      (∀ i j, i < 512 → j < 16 → s.patterned q = true → s.expo.pattern.code = 1 →
        (pixel t i j).r = s.expo.pattern.r ∧ (pixel t i j).g = s.expo.pattern.g ∧ (pixel t i j).b = s.expo.pattern.b) ∧
      (∀ k, (∀ i j, i < 512 → j < 16 → k ≠ pixKey (16 * x.row + j) (512 * x.m + i)) →
        mapGet (fun _ => rgba0) (t.easels[q]).buf k = mapGet (fun _ => rgba0) e.buf k) ∧
      t.live (idSamples q.val) =
        min (s.live (idSamples q.val) + ((s.stripPlaces x.row x.m).map fun p => (comp p.1 p.2).samples).sum) (2 ^ 48 - 1)) ∧
  (∀ (s : State) (q : Fin 4) (marks : List Nat) (r : Ray), (∀ m ∈ marks, m ≠ 0) →
    (s.compositeAt q marks r).c = rgba0 ∧ (s.compositeAt q marks r).samples = 0) ∧
  (∀ (s : State) (q : Fin 4), s.canonical = true → s.easelRuns q = true → (s.easels[q]).st = .running →
    let e := s.easels[q]
    let n := e.period + 1
    let y := n + 2 - s.vblank
    s.periodDue q n = true → n < s.lt → s.vblank ≤ n + 2 → y < 16 * s.qh → n < s.vblank ∨ (s.ports[q]).st = .up →
    mapFind e.rows (y / 16) = some (2 ^ s.qw - 1) →
    ∃ t u : State, exec (.linePeriodStart q) s = .next t ∧ u = { s with easels := u.easels, ports := u.ports } ∧
      u.easels[q] = { e with period := n, gck := (u.easels[q]).gck, gsp := (u.easels[q]).gsp, goe := (u.easels[q]).goe } ∧
      (let w := u.lineReads q y
      let out (i ch : Nat) : ChanOut := w.channel q ch i y (mapGet (fun _ => rgba0) e.buf (pixKey y i))
      (∀ i ch, i < 512 * s.qw → ch < 3 →
        fld (mapGet (fun _ => 0) (t.easels[q]).outw (pixKey y i)) (10 * ch + 9) (10 * ch) = s.stage5 q i y (out i ch).drive ∧
        (s.flatNow = false → mapFind (t.easels[q]).pfsNew (pfsKey ch y i) = some (out i ch).byte)) ∧
      (s.flatNow = true → (t.easels[q]).pfsNew = e.pfsNew)) ∧
      ∀ k : Fin 16, (t.easels[q]).crcs[k] =
        if e.checked.getLsbD k ∧ fld (s.reg (idLoupe q.val k.val 1)) 15 0 ≤ y ∧ y < fld (s.reg (idLoupe q.val k.val 1)) 31 16
        then crc32Bytes e.crcs[k] (t.tapBytes q (fld (s.reg (idLoupe q.val k.val 2)) 2 1) y
          (fld (s.reg (idLoupe q.val k.val 0)) 15 0) (fld (s.reg (idLoupe q.val k.val 0)) 31 16))
        else e.crcs[k]) ∧
  (∀ (s : State) (q : Fin 4), s.canonical = true → (s.easels[q]).st ≠ .idle →
    let e := s.easels[q]
    let t := s.loupeEnd q
    let whole (k : Fin 16) : Prop := e.checked.getLsbD k ∧ fld (s.reg (idLoupe q.val k.val 1)) 31 16 ≤ e.sentLines
    let wrong (k : Fin 16) : Prop := whole k ∧ ~~~ e.crcs[k] ≠ s.reg (idLoupe q.val k.val 3)
    (∀ k : Fin 16, t.reg (idLoupe q.val k.val 4) = (if whole k then ~~~ e.crcs[k] else s.reg (idLoupe q.val k.val 4)) ∧
      ((t.reg (idLoupeStatus q.val)).getLsbD (16 + k.val) = true ↔ whole k) ∧ ((t.reg (idLoupeStatus q.val)).getLsbD k = true ↔ wrong k)) ∧
    (s.up dCtrl = true → s.locked 1 = true → s.up (dEasel q.val) = true →
      ((∃ k, wrong k) → t.evStatus (416 + q.val) = true) ∧
      ((∃ k : Fin 16, e.checked.getLsbD k = true ∧ ¬ whole k) → t.evStatus (420 + q.val) = true))) ∧
  ∀ (s : State) (q : Fin 4), s.rasterStarts q = true →
    let e := s.easels[q]
    let l := (s.quadRegions q).map s.regionTemp
    let tq := l.foldl max (l.headD s.rayMap.coeff.tRef)
    let up := boundCount s.corr.bounds tq 0
    let down := boundCount s.corr.bounds tq 256
    let t := s.bandTick q
    let moves (b : Nat) : Prop := (t.easels[q]).band = ⟨b, e.band.band, 1, 2⟩ ∧
      (s.canonical = true → s.up dCtrl = true → s.locked 1 = true → s.up (dEasel q.val) = true → t.evStatus (360 + 16 * q.val) = true)
    (s.pmu.mode ≠ .field → s.pmu.mode ≠ .service → t = s.setEasel q { e with band := { e.band with oldLeft := e.band.oldLeft - 1 } }) ∧
    (s.pmu.mode = .field ∨ s.pmu.mode = .service → (t.easels[q]).bandFirst = false ∧
      (e.bandFirst = true → (t.easels[q]).band = ⟨up, up, 1, e.band.oldLeft - 1⟩) ∧
      (e.bandFirst = false → 4 ≤ e.band.dwell → e.band.band < up → moves up) ∧
      (e.bandFirst = false → 4 ≤ e.band.dwell → up ≤ e.band.band → down < e.band.band → moves down) ∧
      (e.bandFirst = false → e.band.dwell < 4 ∨ (up ≤ e.band.band ∧ e.band.band ≤ down) →
        (t.easels[q]).band = { e.band with dwell := min (e.band.dwell + 1) 7, oldLeft := e.band.oldLeft - 1 }))

/-! ### Contact and Refocus (chapters 4, 11) -/

/-- Contact: a submission is refused outside the active modes, by a full queue or by its checks, or queued with the next sequence number and,
into a back buffer, with a write credit, for which it waits; the head job starts when no earlier job conflicts and its start line has been
passed; a wait that expires lets the job go on with E482. The running job completes when the other queue's has no fewer units left: a LINEAR
destination holds exactly its new elements (FILL: FG; COPY: the source's elements as they were; EXPAND: FG or BG, or FG or as before, by the
source's bits), every block of a plate destination reads as its new bytes and no other byte changes; then it is notified. -/
def Obligations.ContactJobsQueueStartAndComplete : Prop :=
  (∀ (s : State) (c : Cmd), s.mayStart c 0x0501 = true →
    let x : Fin 2 := Fin.ofNat 2 c.queue
    let refused (r : Nat) : Prop := ∃ t, exec (.contactSubmit c) s = .next t ∧ Answered s t c 2 r []
    (s.active = false ∨ s.contact.accepting = false → refused 0x0506) ∧
    (s.active = true → s.contact.accepting = true → (32 ≤ (s.contact.qs[x]).jobs.length → refused 0x0505) ∧
      ((s.contact.qs[x]).jobs.length < 32 → (∀ r, s.ctCheck (ctDesc c.payload) = .inl r → refused r) ∧
        ∀ dst front src, s.ctCheck (ctDesc c.payload) = .inr (dst, front, src) →
          (s.ctFull front dst = true → exec (.contactSubmit c) s = .next s) ∧ (s.ctFull front dst = false → ∃ t u, exec (.contactSubmit c) s = .next t ∧
          Answered u t c 0 0 (leBytes 4 (s.contact.qs[x]).nextSeq) ∧
          (u.contact.qs[x]).jobs.map CtJob.seq = (s.contact.qs[x]).jobs.map CtJob.seq ++ [(s.contact.qs[x]).nextSeq] ∧
          ((∀ k ∈ (s.contact.qs[x]).jobs, k.seq ≠ (s.contact.qs[x]).nextSeq) → ∃ j, (u.contact.qs[x]).jobs.getLast? = some j ∧
            j.desc = c.payload ∧ j.dst = dst ∧ j.dstFront = front ∧ j.src = src ∧ j.started = false ∧ j.complete = false) ∧
          (u.contact.qs[x]).nextSeq = ((s.contact.qs[x]).nextSeq + 1) % 2 ^ 32 ∧ u.contact.qs[1 - x] = s.contact.qs[1 - x] ∧
          u.pool (41 + x.val) = { s.pool (41 + x.val) with issued := ((s.pool (41 + x.val)).issued + 1) % 2 ^ 64 } ∧ u.dmc = s.dmc ∧
          (∀ p i n, dst.plate = some (p, i, n) → front = false → (u.buf p i).credits = (s.buf p i).credits + 1) ∧
          (dst.plate = none ∨ front = true → u.plates = s.plates))))) ∧
  (∀ (s : State) (c : Cmd), s.mayStart c 0x0502 = true →
    (2 ≤ c.arg 0 1 → ∃ t, exec (.contactStatus c) s = .next t ∧ Answered s t c 2 0x0108 []) ∧
    ∀ x : Fin 2, c.arg 0 1 = x.val → ∃ t p, exec (.contactStatus c) s = .next t ∧ Answered s t c 0 0 p ∧
      leAt p 1 1 = (s.contact.qs[x]).jobs.length % 256 ∧ leAt p 4 4 = (s.reg (idCtDone x.val)).toNat) ∧
  ∀ (s : State) (x : Fin 2) (j : CtJob), s.canonical = true → s.maskRuns = true → (s.contact.qs[x]).jobs = [j] → j.complete = false →
    (j.started = false → s.contact.accepting = true → s.ctConflicts j = false → (ctDesc j.desc).wait = false ∨ j.passed = true →
      ∃ t, exec (.contactJobStart x) s = .next t ∧ (t.contact.qs[x]).jobs = [{ j with started := true }] ∧
        t = { s with contact := t.contact } ∧ t.contact.qs[1 - x] = s.contact.qs[1 - x]) ∧
    (s.contact.accepting = false ∨ s.ctConflicts j = true ∨ ((ctDesc j.desc).wait = true ∧ j.passed = false) → exec (.contactJobStart x) s = .next s) ∧
    (j.passed = false → 0 < j.ticks → s.rf idCtCtrl 15 0 ≤ j.ticks → ∃ t, exec (.ctWaitExpired x) s = .next t ∧
      (t.contact.qs[x]).jobs = [{ j with passed := true, waitExp := true }] ∧ EventEffect { s with contact := t.contact } t ∧
      (s.up dCtrl = true → s.locked 1 = true → t.evStatus 482 = true)) ∧
    (j.passed = false → j.ticks < s.rf idCtCtrl 15 0 → exec (.ctWaitExpired x) s = .next s) ∧
    (s.ctRuns x = some j → ∀ k, s.ctRuns (1 - x) = some k → k.left < j.left → exec (.contactJobComplete x) s = .next s) ∧
    let d := ctDesc j.desc
    s.ctRuns x = some j → (∀ k, s.ctRuns (1 - x) = some k → j.left ≤ k.left) → d.wm = false →
    ∀ ls, (d.op = 0 ∧ ls = none) ∨ (d.op ≠ 0 ∧ ∃ r g, ctSurf d.src = some r ∧ j.src = some g ∧ s.ctBound r g = ls ∧ ls ≠ none) →
    let notified (t : State) : Prop := (t.contact.qs[x]).jobs = [] ∧ t.reg (idCtDone x.val) = BitVec.ofNat 32 j.seq ∧
      t.ctr idCtJobs = (s.ctr idCtJobs + 1) % 2 ^ 64 ∧
      t.pool (41 + x.val) = { s.pool (41 + x.val) with returned := ((s.pool (41 + x.val)).returned + 1) % 2 ^ 64 } ∧
      (s.up dCtrl = true → s.locked 1 = true → t.evStatus (480 + x.val) = true)
    (∀ k pitch base, k ≤ 3 → ctSurf d.dst = some (.linear k pitch base) → j.dst.plate = none →
      let e := 2 ^ k
      let w := ctWidth d (.bytes e pitch base) ls
      let at_ (x' y i : Nat) : Nat := base + (d.dy + y) * pitch + (d.dx + x') * e + i
      (d.dx + w) * e ≤ pitch →
      ctSurf d.src = ctSurf d.dst ∨ (∀ x' y i, x' < w → y < d.h → i < e → ctShared d ls w (at_ x' y i) = false) →
      ∃ t, exec (.contactJobComplete x) s = .next t ∧ notified t ∧ t.plates = s.plates ∧
        (∀ x' y i, x' < w → y < d.h → i < e →
          t.dramByte (at_ x' y i) = match s.ctNew d ls e x' y with | some v => byteAt (leBytes 8 v) i | none => s.dramByte (at_ x' y i)) ∧
        (d.op = 0 → ∀ x' y i, x' < w → y < d.h → i < e → t.dramByte (at_ x' y i) = byteAt (leBytes 8 d.fg) i) ∧
        (d.op = 1 → s.dmc.poison = [] → s.dmc.upset = [] → ∀ p' b', ls = some (.bytes e p' b') →
          ∀ x' y i, x' < w → y < d.h → i < e → t.dramByte (at_ x' y i) = s.dramByte (b' + (d.sy + y) * p' + (d.sx + x') * e + i)) ∧
        ∀ a, (∀ x' y i, x' < w → y < d.h → i < e → a ≠ at_ x' y i) → t.dramByte a = s.dramByte a) ∧
    ∀ p i n pl fr m, j.dst.plate = some (p, i, n) → (s.buf p i).plane n = some pl → ctSurf d.dst = some (.plate p fr m) →
      pl.addr + 512 * pl.blocks ≤ pl.ent → s.dmc.poison = [] → s.dmc.upset = [] →
      let num (bx by_ : Nat) : Nat := by_ * blocksAcross pl.lay pl.w + bx
      let inside (bx by_ : Nat) : Prop := j.dst.x0 ≤ bx ∧ bx < j.dst.x1 ∧ j.dst.y0 ≤ by_ ∧ by_ < j.dst.y1
      j.dst.x1 ≤ blocksAcross pl.lay pl.w → (∀ bx by_, inside bx by_ → num bx by_ < pl.blocks) →
      ∃ t, exec (.contactJobComplete x) s = .next t ∧ notified t ∧
        (j.dstFront = false → (t.buf p i).credits = (s.buf p i).credits - 1) ∧
        t.ctr idCtStored = (s.ctr idCtStored + (j.dst.x1 - j.dst.x0) * (j.dst.y1 - j.dst.y0)) % 2 ^ 64 ∧
        (∀ bx by_, inside bx by_ → t.readPlane pl (num bx by_) =
          .bytes (s.ctBlock d ls pl (ctCol (pl.lay == .ea1) d.dx) (ctWidth d (.plane p i pl) ls) bx by_).2.2) ∧
        ∀ a, (∀ bx by_, inside bx by_ →
            (a < pl.addr + 512 * num bx by_ ∨ pl.addr + 512 * num bx by_ + 512 ≤ a) ∧ (a < pl.ent + 2 * num bx by_ ∨ pl.ent + 2 * num bx by_ + 2 ≤ a)) →
          t.dramByte a = s.dramByte a

/-- Refocus: a FORCE write starts a rebuild of the next generation, is kept under FREEZE, and starts nothing while one is BUSY or READY; a
rebuild that ends writes the inactive table of every powered cluster and sets READY; at a raster tick whose edge found READY set the table
swaps everywhere at once with E298, and one whose edge found a rebuild BUSY for 1 ms counts it late with E299; REFOCUS_READ returns a kept
generation. -/
def Obligations.RefocusRebuildsAndSwaps : Prop :=
  (∀ s : State, s.up dCtrl = true →
    (bit (s.reg idRfcCtrl) 1 = true ∨ s.fw = false → exec .rfcForceWrite s = .next { s with rfc := { s.rfc with kept := true } }) ∧
    (bit (s.reg idRfcCtrl) 1 = false → s.fw = true → s.rfc.busy = true ∨ s.rfc.ready = true → exec .rfcForceWrite s = .next s) ∧
    (bit (s.reg idRfcCtrl) 1 = false → s.fw = true → s.rfc.busy = false → s.rfc.ready = false → ∃ t, exec .rfcForceWrite s = .next t ∧
      t = { s with rfc := t.rfc } ∧ t.rfc.busy = true ∧ t.rfc.busyAt = s.now ∧ t.rfc.gen = (s.rfc.gen + 1) % 2 ^ 16 ∧
      t.rfc.building.gen = t.rfc.gen ∧ t.rfc.active = s.rfc.active ∧ t.rfc.tabA = s.rfc.tabA ∧ t.rfc.tabB = s.rfc.tabB ∧
      (bit (s.reg idRfcCtrl) 0 = false → t.rfc.building.entries = []))) ∧
  (∀ s : State, s.fw = true → s.rfc.busy = true → s.rfc.ready = false → ∃ t, exec .refocusRebuildDone s = .next t ∧
    t = { s with rfc := t.rfc } ∧ t.rfc.ready = true ∧ t.rfc.readyAt = s.now ∧ t.rfc.history = s.rfc.history ∧
    ∀ c : Fin 12, t.rfcTab c true = s.rfcTab c true ∧
      t.rfcTab c false = (if s.up (dEc c.val) then s.rfc.building else s.rfcTab c false)) ∧
  (∀ (s : State) (m : TickMsg), s.canonical = true → s.up dCtrl = true → s.locked 1 = true →
    let t := s.rfcTick m
    (m.swap = true → s.rfc.ready = true → s.rfc.kept = false →
      t.rfc.active = !s.rfc.active ∧ t.rfc.ready = false ∧ t.rfc.busy = false ∧ t.rfc.genActive = s.rfc.building.gen ∧
      t.rfc.history.head? = some s.rfc.building ∧ t.evStatus 298 = true ∧ (∀ c, t.rfcTab c true = s.rfcTab c false) ∧
      EventEffect { s with rfc := t.rfc } t) ∧
    (m.swap = false → m.late = true → t.rfc = s.rfc ∧ t.evStatus 299 = true ∧ t.ctr idRfcLate = (s.ctr idRfcLate + 1) % 2 ^ 64 ∧
      EventEffect (s.addCtr idRfcLate 1) t) ∧
    (m.swap = false → m.late = false → t = s)) ∧
  ∀ (s : State) (c : Cmd), s.mayStart c 0x0402 = true →
    (s.rfc.history.find? (fun g => g.gen == c.arg 0 2) = none → ∃ t, exec (.refocusRead c) s = .next t ∧ Answered s t c 2 0x0108 []) ∧
    ∀ g, s.rfc.history.find? (fun g => g.gen == c.arg 0 2) = some g →
      let bytes := s.regions.flatMap fun r => rfBytes (mapGet (fun _ => rfIdentity) g.entries r)
      (resultOk (c.arg 8 8) (32 * s.regions.length) = false → ∃ t, exec (.refocusRead c) s = .next t ∧ Answered s t c 2 0x010A []) ∧
      (resultOk (c.arg 8 8) (32 * s.regions.length) = true → s.resultRoom (c.arg 8 8) (32 * s.regions.length) = false →
        exec (.refocusRead c) s = .next s) ∧
      (resultOk (c.arg 8 8) (32 * s.regions.length) = true → s.resultRoom (c.arg 8 8) (32 * s.regions.length) = true →
        ∃ t u, exec (.refocusRead c) s = .next t ∧ Answered u t c 0 0 [] ∧ DramEffect s u ∧
        (s.canonical = true → c.arg 8 8 ≠ 0 → ∀ (i : Nat) (h : i < bytes.length), t.dramByte (c.arg 8 8 + i) = bytes[i]) ∧
        ∀ a, c.arg 8 8 = 0 ∨ a < c.arg 8 8 ∨ c.arg 8 8 + bytes.length ≤ a → t.dramByte a = s.dramByte a)

/-! ### The panel (chapter 10) -/

/-- Panel power: PANEL_ON starts the up sequence, joins one, or is refused over a bad crack loop whatever the panel's state; rail i is
enabled DELAY_i after the rail before it and the fourth power good makes the panel ON with E469; a power good that is late, or lost while
ON, two crack readings outside their limits, PANEL_OFF and PANEL_SAFE start the panel-safe sequence: the raster aborts, strobes are held,
the OFF frame goes first; then the rails fall from the highest one. -/
def Obligations.PanelPowerFollowsItsSequences : Prop :=
  ∀ s : State, s.canonical = true → s.up dAon = true → s.up dCtrl = true → s.locked 1 = true → s.up dPl = true →
    let safe (t : State) (cause : SafeCause) : Prop := t.panel.st = .safeSeq ∧ t.panel.step = .discharge ∧ t.panel.stepAt = s.now ∧
      t.panel.cause = s.panel.cause ||| BitVec.ofNat 6 (2 ^ causeCode cause) ∧ t.panel.en = s.panel.en ∧ t.panel.strobesHeld = true ∧
      t.panel.blFrame = none ∧ t.panel.blSent = offFrame :: s.blOut ∧ (∀ q : Fin 4, (t.easels[q]).st ≠ .running ∧
        ((s.easels[q]).st ≠ .idle → (t.easels[q]).goe = true ∧ (t.easels[q]).gck = 0)) ∧ t.pmu = s.pmu
    (∀ c, s.mayStart c 0x0601 = true →
      (s.crackBad 0 = true ∨ s.crackBad 1 = true ∨ s.panel.st = .safeSeq →
        ∃ t, exec (.panelOn c) s = .next t ∧ Answered { s with fresh := s.fresh + 1 } t c 2 (fld (Config.freeWord s.fresh) 15 0) []) ∧
      (s.crackBad 0 = false → s.crackBad 1 = false →
        (s.panel.st = .on → ∃ t, exec (.panelOn c) s = .next t ∧ Answered s t c 0 0 []) ∧
        (s.panel.st = .upSeq → ∃ t, exec (.panelOn c) s = .next t ∧ t.panel = { s.panel with cmds := s.panel.cmds ++ [c] } ∧
          t = { s with panel := t.panel, dk := { s.dk with started := s.dk.started ++ [c] } }) ∧
        (s.panel.st = .off → ∃ t, exec (.panelOn c) s = .next t ∧
          t.panel = { s.panel with st := .upSeq, upRail := 0, stepAt := s.now, cmds := s.panel.cmds ++ [c] } ∧
          t = { s with panel := t.panel, dk := { s.dk with started := s.dk.started ++ [c] } }))) ∧
    (∀ i, s.panel.st = .upSeq → s.panel.upRail = i → i < 4 → s.panel.en.getLsbD i = false → s.panel.pg.getLsbD i = false →
      (s.now < s.panel.stepAt + s.railDelay i → exec .panelUpRailStep s = .next s) ∧
      (s.panel.stepAt + s.railDelay i ≤ s.now → ∃ t, exec .panelUpRailStep s = .next t ∧
        t.panel = { s.panel with en := s.panel.en ||| BitVec.ofNat 4 (2 ^ i), stepAt := s.now } ∧ t = { s with panel := t.panel })) ∧
    (∀ i : Fin 4, s.panel.st = .upSeq → s.panel.upRail = i.val → s.panel.en.getLsbD i.val = true →
      ∃ t, exec (.pnlPgRise i) s = .next t ∧ t.panel.en = s.panel.en ∧
        t.panel.pg = s.panel.pg ||| BitVec.ofNat 4 (2 ^ i.val) ∧
        (i.val < 3 → t.panel.st = .upSeq ∧ t.panel.upRail = i.val + 1 ∧ t.panel.stepAt = s.now ∧ t = { s with panel := t.panel }) ∧
        (i.val = 3 → t.panel.st = .on ∧ t.panel.strobesHeld = false ∧ t.evStatus 469 = true)) ∧
    (s.panel.st = .upSeq → s.panel.en.getLsbD s.panel.upRail = true → s.panel.stepAt + s.pgTimeout ≤ s.now →
      ∃ t, exec .pgTimeout s = .next t ∧ safe t .pgTimeout ∧ t.evStatus 464 = true) ∧
    (∀ (i : Fin 4) t0, s.panel.st = .on → s.panel.pgLowAt[i] = some t0 → t0 + 40 ≤ s.now →
      ∃ t, exec (.pgLost i) s = .next t ∧ safe t .pgLost ∧ t.evStatus 465 = true) ∧
    (∀ (i : Fin 2) (ohms : BitVec 16), s.active = true → bit (s.reg idCrkCtrl) i.val = true →
      (s.crackDue i = false → exec (.crackMeasure i ohms) s = .next s) ∧ (s.crackDue i = true →
      let read := if 10000 ≤ ohms.toNat then 0xFFFF else ohms.toNat
      let out := read < s.rf (idCrkLimit i.val) 15 0 ∨ s.rf (idCrkLimit i.val) 31 16 < read
      ∃ t, exec (.crackMeasure i ohms) s = .next t ∧ t.reg (idCrkValue i.val) = BitVec.ofNat 32 read ∧
        (¬ out → t.panel = { s.panel with crackOut := s.panel.crackOut.set i 0, crackAt := s.panel.crackAt.set i (some s.now) } ∧
          t = { s with regs := t.regs, panel := t.panel }) ∧
        (out → t.panel.crackOut[i] = s.panel.crackOut[i] + 1 ∧ (s.panel.crackOut[i] = 1 → t.evStatus (466 + i.val) = true ∧
          (s.panel.st = .on ∨ s.panel.st = .upSeq → t.panel.st = .safeSeq)) ∧ (s.panel.crackOut[i] = 0 → t.panel.st = s.panel.st)))) ∧
    (∀ cause, ∃ t, exec (.panelSafe cause) s = .next t ∧ (s.panel.st = .on ∨ s.panel.st = .upSeq → safe t cause) ∧
      (s.panel.st = .off ∨ s.panel.st = .safeSeq → t.panel.st = s.panel.st ∧ t.panel.en = s.panel.en ∧
        t.panel.cause = s.panel.cause ||| BitVec.ofNat 6 (2 ^ causeCode cause) ∧ t = { s with panel := t.panel })) ∧
    (∀ c, s.mayStart c 0x0602 = true → (s.panel.st = .off → ∃ t, exec (.panelOff c) s = .next t ∧ Answered s t c 0 0 []) ∧
      (s.panel.st = .on ∨ s.panel.st = .upSeq → ∃ t, exec (.panelOff c) s = .next t ∧ safe t .host)) ∧
    (∀ i, i < 4 → s.panel.st = .safeSeq → s.panel.step = .discharge → s.pmu.tripped = false → s.panel.en.getLsbD i = true →
      (∀ j, i < j → j < 4 → s.panel.en.getLsbD j = false) →
      (s.now < s.panel.stepAt + s.discharge → exec .panelSafeDischargeEnd s = .next s) ∧
      (s.panel.stepAt + s.discharge ≤ s.now → exec .panelSafeDischargeEnd s = .next
        { s with panel := { s.panel with step := .lower i, stepAt := s.now } })) ∧
    (∀ i, s.panel.step = .lower i → s.panel.pg.getLsbD i = true → s.panel.stepAt + s.railDelay i ≤ s.now →
      exec .panelRailDownStep s = .next
        { s with panel := { s.panel with en := s.panel.en &&& ~~~ BitVec.ofNat 4 (2 ^ i), step := .waitPg i, stepAt := s.now } }) ∧
    ∀ i : Fin 4, s.panel.step = .waitPg i.val → ∃ t, exec (.pnlPgFall i) s = .next t ∧ t.panel.pg.getLsbD i.val = false ∧
      t.panel.en = s.panel.en ∧ (0 < i.val → t.panel.step = .lower (i.val - 1) ∧ t.panel.stepAt = s.now ∧ t = { s with panel := t.panel }) ∧
      (i.val = 0 → t.panel.st = .off ∧ t.panel.step = .none)

/-- The panel's links and sideband: training attempts and the third failure; a POLL round of every chip, whose answers bring a port UP or
into RETRAIN; requests and their responses or failures; RETAIN and RELEASE broadcasts, a confirmed and an unconfirmed RETAIN; and the
backlight frame. -/
def Obligations.LinksAndSidebandFollowTheirRules : Prop :=
  (∀ (s : State) (c : Cmd), s.mayStart c 0x0603 = true →
    (15 < c.arg 0 1 → ∃ t, exec (.plRetrain c) s = .next t ∧ Answered s t c 2 0x0108 []) ∧
    (c.arg 0 1 ≤ 15 → ∃ t, exec (.plRetrain c) s = .next t ∧ t.dmc = s.dmc ∧ t.plates = s.plates ∧ ∀ q : Fin 4,
      ((c.arg 0 1).testBit q.val = true → (t.ports[q]).st = .train ∧ (t.ports[q]).trainAt = none ∧ (t.ports[q]).attempts = 0 ∧
        (t.ports[q]).clk.since = none) ∧
      ((c.arg 0 1).testBit q.val = false → t.ports[q] = s.ports[q]))) ∧
  (∀ (s : State) (q : Fin 4), s.training q = true →
    ((s.ports[q]).trainAt = none → s.up dPl = true → s.locked (10 + q.val) = true → s.easelRuns q = true →
      let rate := fld (s.reg (idPlCtrl q.val)) 3 2
      ∃ t, exec (.plTrainStart q) s = .next t ∧ (t.ports[q]).trainAt = some s.now ∧ t.pmu.refreshAt = none ∧
        (t.ports[q]).clk = ⟨some s.now, s.lanes q, rate, 0, 255, if (s.ports[q]).lineOut s.now then some 0 else none⟩ ∧ (t.ports[q]).due = [] ∧ (∀ i : Fin 12, ((t.ports[q]).lanes[i]).scr = BitVec.allOnes 58) ∧
        ((s.ports[q]).sb = [] → (t.ports[q]).sbSent =
          sbFrame sbAll 2 (leBytes 1 1 ++ leBytes 4 (s.lanes q + 16 * rate)) :: (s.ports[q]).sbSent) ∧
        t = { s with ports := t.ports, pmu := { s.pmu with refreshAt := none } }) ∧
    ∀ t0, (s.ports[q]).trainAt = some t0 → (s.now < t0 + 500000 → exec (.plTrainTimeout q) s = .next s) ∧
      (t0 + 500000 ≤ s.now → ∃ t, exec (.plTrainTimeout q) s = .next t ∧ (t.ports[q]).trainAt = none ∧ (t.ports[q]).clk.since = none ∧
        ((s.ports[q]).attempts + 1 < 3 → (t.ports[q]).st = (s.ports[q]).st ∧ (t.ports[q]).attempts = (s.ports[q]).attempts + 1) ∧
        (3 ≤ (s.ports[q]).attempts + 1 → (t.ports[q]).st = .down ∧
          (s.canonical = true → s.up dCtrl = true → s.locked 1 = true → s.up dPl = true → t.evStatus (448 + q.val) = true)))) ∧
  (∀ (s : State) (q : Fin 4), s.sbOn q = true → s.active = true →
    let due := s.training q = true ∨ (s.ports[q]).pollAt = 0 ∨ (s.ports[q]).pollAt + 250000 ≤ s.now
    (s.polling q = true ∨ ¬ due → exec (.sbPoll q) s = .next s) ∧
    (s.polling q = false → due → ∃ t, exec (.sbPoll q) s = .next t ∧ (t.ports[q]).pollAt = s.now ∧ (t.ports[q]).round = [] ∧
      (t.ports[q]).sb = (s.ports[q]).sb ++ (List.range (s.chips q)).map (fun i => ⟨i, 1, [], .poll⟩) ∧
      (s.chips q ≠ 0 → (s.ports[q]).sb = [] → (t.ports[q]).sbSent = sbFrame 0 1 [] :: (s.ports[q]).sbSent) ∧
      (∀ z : Fin 4, z ≠ q → t.ports[z] = s.ports[z]) ∧ t = { s with ports := t.ports })) ∧
  (∀ (s : State) (q : Fin 4) (i : Nat) (bytes : List Byte), s.canonical = true → s.sbOn q = true → (s.ports[q]).sb = [⟨i, 1, [], .poll⟩] →
    let whole := (s.ports[q]).sbAt + ckTime (reqCk 0 + 2) + ckTime (8 * bytes.length)
    (s.now < whole → exec (.sbResponse q bytes) s = .next s) ∧
    (whole ≤ s.now → sbParse bytes = none ∨ whole + ckTime 64 < s.now → s.up (srcDomain (456 + q.val)) = true →
      ∃ t, exec (.sbResponse q bytes) s = .next t ∧
      (t.ports[q]).st = (s.ports[q]).st ∧ (t.ports[q]).sb = [] ∧ t.ctr (idSbErrors q.val) = (s.ctr (idSbErrors q.val) + 1) % 2 ^ 64 ∧
      (s.up dCtrl = true → s.locked 1 = true → t.evStatus (456 + q.val) = true)) ∧
    (∀ p, sbParse bytes = some (0, p) → whole ≤ s.now → s.now ≤ whole + ckTime 64 →
      ∃ t, exec (.sbResponse q bytes) s = .next t ∧ (t.ports[q]).sb = [] ∧ t.plates = s.plates ∧
      t.dmc = s.dmc ∧ (∀ z : Fin 4, z ≠ q → t.ports[z] = s.ports[z]) ∧
      let a := pollOf p
      (∀ t0, s.training q = true → (s.ports[q]).trainAt = some t0 →
        (t0 + 25000 ≤ (s.ports[q]).pollAt → a.good (s.laneMask q) = true →
          (∀ r ∈ (s.ports[q]).round, ∃ b, r = some b ∧ b.good (s.laneMask q) = true) → (t.ports[q]).st = .up ∧ (t.ports[q]).upAt = s.now) ∧
        (a.good (s.laneMask q) = false → (t.ports[q]).st = (s.ports[q]).st)) ∧
      ((s.ports[q]).st = .up → (t.ports[q]).st = if a.good (s.laneMask q) then .up else .retrain))) ∧
  (∀ (s : State) (q : Fin 4) (c : Cmd), s.sbOn q = true → c.arg 0 1 = q.val → (s.ports[q]).sb = [] →
    (s.mayStart c 0x0604 = true → c.arg 1 1 ≤ 31 → ∃ t, exec (.sbCfgWrite c) s = .next t ∧
      (t.ports[q]).sb = [⟨c.arg 1 1, 2, leBytes 1 (c.arg 2 1) ++ leBytes 4 (c.arg 4 4), .cfgWrite c⟩] ∧
      (t.ports[q]).sbSent = sbFrame (c.arg 1 1) 2 (leBytes 1 (c.arg 2 1) ++ leBytes 4 (c.arg 4 4)) :: (s.ports[q]).sbSent ∧
      t = { s with ports := t.ports, dk := { s.dk with started := s.dk.started ++ [c] } }) ∧
    (s.mayStart c 0x0604 = true → c.arg 1 1 = 63 → ∃ t u, exec (.sbCfgWrite c) s = .next t ∧ Answered u t c 0 0 [] ∧
      (u.ports[q]).sbSent = sbFrame 63 2 (leBytes 1 (c.arg 2 1) ++ leBytes 4 (c.arg 4 4)) :: (s.ports[q]).sbSent ∧
      u = { s with ports := u.ports, panel := u.panel, dk := { s.dk with started := s.dk.started ++ [c] } }) ∧
    (s.mayStart c 0x0605 = true → (31 < c.arg 1 1 → ∃ t, exec (.sbCfgRead c) s = .next t ∧ Answered s t c 2 0x0108 []) ∧
      (c.arg 1 1 ≤ 31 → ∃ t, exec (.sbCfgRead c) s = .next t ∧
        (t.ports[q]).sb = [⟨c.arg 1 1, 3, leBytes 1 (c.arg 2 1), .cfgRead c⟩] ∧
        t = { s with ports := t.ports, dk := { s.dk with started := s.dk.started ++ [c] } }))) ∧
  (∀ (s : State) (q : Fin 4) (c : Cmd) (chip cmd : Nat) (p bytes : List Byte), s.canonical = true → s.sbOn q = true →
    (s.ports[q]).sb = [⟨chip, cmd, p, .cfgRead c⟩] → s.waits c = true →
    let reply := (s.ports[q]).sbAt + ckTime (reqCk p.length + 2)
    let whole := reply + ckTime (8 * bytes.length)
    let failed (t : State) : Prop := ∃ u reason, Answered u t c 3 reason [] ∧ (u.ports[q]).sb = [] ∧
      u.ctr (idSbErrors q.val) = (s.ctr (idSbErrors q.val) + 1) % 2 ^ 64
    (s.now < whole → exec (.sbResponse q bytes) s = .next s) ∧
    (∀ data, sbParse bytes = some (0, data) → whole ≤ s.now → s.now ≤ whole + ckTime 64 →
      ∃ t u, exec (.sbResponse q bytes) s = .next t ∧ Answered u t c 0 0 (padTo 4 data) ∧
      (u.ports[q]).sb = [] ∧ u = { s with ports := u.ports, panel := u.panel }) ∧
    (sbParse bytes = none ∨ whole + ckTime 64 < s.now → whole ≤ s.now → ∃ t, exec (.sbResponse q bytes) s = .next t ∧ failed t) ∧
    (s.now < reply + ckTime 64 → exec (.sbTimeout q) s = .next s) ∧
    (reply + ckTime 64 ≤ s.now → ∃ t, exec (.sbTimeout q) s = .next t ∧ failed t)) ∧
  (∀ (s : State) (c : Cmd), s.canonical = true → s.up dCtrl = true → s.locked 1 = true →
    (s.mayStart c 0x0606 = true → s.panel.retain = none →
      (1023 < c.arg 0 2 → ∃ t, exec (.panelRetain c) s = .next t ∧ Answered s t c 2 0x0108 []) ∧
      (c.arg 0 2 ≤ 1023 → ∃ t, exec (.panelRetain c) s = .next t ∧ t.panel.retain = some (some c, s.now) ∧
        ∀ q : Fin 4, s.sbOn q = true → (s.ports[q]).sb = [] → sbFrame sbAll 6 (leBytes 2 (c.arg 0 2)) ∈ (t.ports[q]).sbSent)) ∧
    (s.mayStart c 0x0607 = true → ∃ t u, exec (.panelRelease c) s = .next t ∧ Answered u t c 0 0 [] ∧
      u = { s with ports := u.ports } ∧ (∀ q : Fin 4, s.sbOn q = true → (s.ports[q]).sb = [] →
        (u.ports[q]).sbSent = sbFrame sbAll 7 [] :: (s.ports[q]).sbSent)) ∧
    ∀ (q : Fin 4) (chip t0 : Nat), s.panel.retain = some (some c, t0) → s.waits c = true →
      let failed (u : State) : Prop := u.panel.retain = none ∧ u.panel.retainDue = s.panel.retainDue.erase (32 * q.val + chip) ∧ u.evStatus 474 = true
      (∀ bytes p, s.sbOn q = true → (s.ports[q]).sb = [⟨chip, 1, [], .retain⟩] → s.panel.retainDue = [32 * q.val + chip] →
        let whole := (s.ports[q]).sbAt + ckTime (reqCk 0 + 2) + ckTime (8 * bytes.length)
        whole ≤ s.now → s.now ≤ whole + ckTime 64 → sbParse bytes = some (0, p) → (pollOf p).chipState = 3 →
        ∃ t u, exec (.sbResponse q bytes) s = .next t ∧ Answered u t c 0 0 [] ∧ u.evStatus 473 = true ∧ u.panel.retain = none) ∧
      (32 * q.val + chip ∈ s.panel.retainDue →
        (s.now < t0 + 2500000 → exec (.retainFail q chip) s = .next s) ∧
        (t0 + 2500000 ≤ s.now → ∃ t u, exec (.retainFail q chip) s = .next t ∧ Answered u t c 3 0x0C07 [] ∧ failed u) ∧
        (let n : State := { s with panel := { s.panel with retain := none } }
        ∃ t, exec (.retainFail q chip) n = .next t ∧ failed t ∧ EventEffect { n with panel := t.panel } t))) ∧
  ∀ (s : State) (miso : Byte), s.rasterRuns = true → s.up dPl = true → s.easelRuns 0 = true → bit (s.reg idBlCtrl) 0 = true →
    (s.panel.blK = some s.expo.rasterTick ∨ s.blDue = false → exec (.blFrameStart miso) s = .next s) ∧
    (s.panel.blK ≠ some s.expo.rasterTick → s.blDue = true → ∃ t, exec (.blFrameStart miso) s = .next t ∧
      t.panel = { s.panel with blFrame := some s.blBytes, blStart := s.now, blK := some s.expo.rasterTick } ∧
      EventEffect { s with panel := t.panel } t ∧ (miso = 0x5A → t = { s with panel := t.panel }) ∧
      (miso ≠ 0x5A → s.canonical = true → s.up dCtrl = true → s.locked 1 = true → t.evStatus 471 = true))

/-! ### Thermal model, throttle and trip (chapter 20) -/

/-- THM: an update that is due advances every node by one step of the network from the state before it, counts, and marks a diode that newly
reads open with E548; while none is due, and without CTRL or its clock, the readings still reach the diode monitor. THERMAL_READ and
THROTTLE_STATUS answer. Throttle: when grace ends stop 1 is scheduled no sooner than one tick period ahead; a check every 500 ms schedules
the next stop while a node is hot; a lift goes to the lowest stop at which the exposure in force fits, or is blocked; the stop in force
changes only at a tick. -/
def Obligations.ThermalUpdatesReadsAndThrottle : Prop :=
  (∀ (s : State) (meters : List Nat) (base stack : Diode), s.canonical = true → s.up dCtrl = true → s.locked 1 = true →
    let per := if s.thm.fast then 15625 else 250000
    (s.thm.updateAt + per ≤ s.now → ∃ t, exec (.thmUpdate meters base stack) s = .next t ∧ t.thm.updateAt = s.now ∧
      t.thm.updates = (s.thm.updates + 1) % 2 ^ 32 ∧ t.thm.diodes = #v[base, stack] ∧ t.plates = s.plates ∧ t.dmc.mem = s.dmc.mem ∧
      t.time = s.time ∧ t.panel = s.panel ∧ (∀ n : Fin 24, t.thm.nodes[n] = s.nodeStep meters n.val) ∧
      (base = .opened → t.thm.faults[0] = 1 ∧ t.thm.amb[0] = s.thm.amb[0] ∧ (s.thm.faults[0] = 0 → t.evStatus 548 = true)) ∧
      ((∃ x, base = .valid x) → s.thm.faults[0] = 0 → t.thm.faults[0] = 0))) ∧
  (∀ (s : State) (meters : List Nat) (base stack : Diode),
    s.up dCtrl = false ∨ s.locked 1 = false ∨ s.now < s.thm.updateAt + (if s.thm.fast then 15625 else 250000) →
    (s.vddaUp = false → exec (.thmUpdate meters base stack) s = .next s) ∧
    (s.vddaUp = true → ∃ t, exec (.thmUpdate meters base stack) s = .next t ∧ t.thm.diodes = #v[base, stack] ∧
      t = { s with thm := { s.thm with diodes := t.thm.diodes, restartSince := t.thm.restartSince }
                   pmu := { s.pmu with stuckOff := t.pmu.stuckOff } } ∧
      (∀ x y, base = .valid x → stack = .valid y → x ≤ 85 * 256 → y ≤ 85 * 256 →
        t.thm.restartSince = some (s.thm.restartSince.getD s.now) ∧ t.pmu = s.pmu))) ∧
  (∀ (s : State) (c : Cmd),
    (s.mayStart c 0x0902 = true → ∃ t p, exec (.throttleStatus c) s = .next t ∧ Answered s t c 0 0 p ∧
      leAt p 0 1 = thrCode s.thm.thr ∧ leAt p 1 1 = s.expo.stop % 256) ∧
    (s.mayStart c 0x0901 = true → c.arg 0 1 ≤ 1 → 1 ≤ c.arg 4 2 → c.arg 4 2 ≤ 512 →
      let all := if c.arg 0 1 = 0 then 24 else s.regions.length
      let n := 16 + 4 * c.arg 4 2
      (all < c.arg 2 2 + c.arg 4 2 → ∃ t, exec (.thermalRead c) s = .next t ∧ Answered s t c 2 0x0901 []) ∧
      (c.arg 2 2 + c.arg 4 2 ≤ all → resultOk (c.arg 8 8) n = false → ∃ t, exec (.thermalRead c) s = .next t ∧ Answered s t c 2 0x010A []) ∧
      (c.arg 2 2 + c.arg 4 2 ≤ all → resultOk (c.arg 8 8) n = true → s.resultRoom (c.arg 8 8) n = false →
        exec (.thermalRead c) s = .next s) ∧
      (c.arg 2 2 + c.arg 4 2 ≤ all → resultOk (c.arg 8 8) n = true → s.resultRoom (c.arg 8 8) n = true →
        ∃ t u, exec (.thermalRead c) s = .next t ∧ Answered u t c 0 0 [] ∧ DramEffect s u ∧
        (∀ a, c.arg 8 8 = 0 ∨ a < c.arg 8 8 ∨ c.arg 8 8 + n ≤ a → t.dramByte a = s.dramByte a) ∧
        (s.canonical = true → c.arg 8 8 ≠ 0 → leNat (t.dramRead (c.arg 8 8) 4) = s.thm.updates % 2 ^ 32 ∧
          (c.arg 0 1 = 0 → ∀ i, i < c.arg 4 2 →
            leNat (t.dramRead (c.arg 8 8 + 0x10 + 4 * i) 2) = unsigned 16 (s.nodeTemp (c.arg 2 2 + i))))))) ∧
  ∀ s : State, s.fw = true → 0 < s.rateNum → 0 < s.rateDen →
    (s.thm.thr = .grace → s.expo.sched = none → (s.now < s.thm.graceEnd → exec .throttleGraceEnd s = .next s) ∧
      (s.thm.graceEnd ≤ s.now → ∃ t k, exec .throttleGraceEnd s = .next t ∧
        t = { s with expo := { s.expo with sched := some (1, k) } } ∧
        s.tickTime * s.rateNum + s.rateDen * 1000000000 * 2 ^ 30 ≤ s.nominalNum k)) ∧
    (0 < s.expo.stop → s.expo.stop < 3 → (s.now < s.thm.checkAt + 125000000 → exec .throttleCheck s = .next s) ∧
      (s.thm.checkAt + 125000000 ≤ s.now → ∃ t, exec .throttleCheck s = .next t ∧ t.thm = { s.thm with checkAt := s.now } ∧
        t.expo = { s.expo with sched := t.expo.sched } ∧ t = { s with thm := t.thm, expo := t.expo } ∧
        ((∃ n, n < 24 ∧ throttleAt n ≤ s.nodeTemp n) → s.expo.sched = none → ∃ k, t.expo.sched = some (s.expo.stop + 1, k)) ∧
        ((∀ n, n < 24 → s.nodeTemp n < throttleAt n) → t.expo.sched = s.expo.sched))) ∧
    (∀ t0, s.thm.coolSince = some t0 → t0 + 250000000 ≤ s.now → 0 < s.expo.stop → s.expo.sched = none → s.thm.thr ≠ .liftBlocked →
      (∀ j, j < s.expo.stop → s.inForceReason s.pmu.mode j = 0x0200 → (∀ i, i < j → s.inForceReason s.pmu.mode i ≠ 0x0200) →
        ∃ t k, exec .throttleLift s = .next t ∧ t = { s with expo := { s.expo with sched := some (j, k) } }) ∧
      ((∀ j, j < s.expo.stop → s.inForceReason s.pmu.mode j ≠ 0x0200) → ∃ t, exec .throttleLift s = .next t ∧
        t.thm = { s.thm with thr := .liftBlocked, liftTried := some t0 } ∧ t.expo = s.expo ∧ t.dk.notices[(0 : Fin 4)].seq = (s.dk.notices[(0 : Fin 4)].seq + 2) % 2 ^ 32)) ∧
    (∀ t0, s.thm.coolSince = some t0 → s.thm.thr = .liftBlocked → s.thm.liftTried = some t0 → exec .throttleLift s = .next s) ∧
    (s.expo.stop = 0 → exec .throttleCheck s = .next s ∧ exec .throttleLift s = .next s)

/-- Trip: a node at its trip threshold latches the trip and cancels any scheduled stop; with the panel ON the panel-safe sequence runs
first, otherwise every domain but AON and every supply but VDDA go down at once; what else is hot then or later in the trip is added to its
record, once; then the trip page goes to counter ring 4; after 10 s of cool valid diodes, neither of them open or shorted since the trip,
the device starts again from the main-supply step. -/
def Obligations.TripPowersDownRecordsAndRestarts : Prop :=
  (∀ (s : State) (n : Nat) (v : Int) (more : List (Nat × Int)), s.vddaUp = true → s.pmu.tripped = false → s.tripCauses = (n, v) :: more → n < 24 →
    s.up dPl = true → (s.up dCtrl = true → s.locked 1 = true) →
    ∃ t, exec .thermalTrip s = .next t ∧ t.pmu.tripped = true ∧
      t.pmu.tripDetail = some (n, v, modeCode s.pmu.mode, s.expo.tick % 2 ^ 32) ∧ t.expo.sched = none ∧
      (∀ e ∈ more, e.1 < 24 → e.1 = n ∨ e.1 ∈ t.pmu.tripMore) ∧
      (s.panel.st = .on → t.panel.st = .safeSeq ∧ t.panel.step = .discharge ∧ t.panel.seqCause = 32 ∧ t.panel.strobesHeld = true ∧
        t.panel.en = s.panel.en ∧ t.pmu.powered = s.pmu.powered ∧
        t.evu.kept = s.evu.kept ++ [(547, BitVec.ofNat 32 n, BitVec.ofNat 32 (unsigned 16 v))]) ∧
      (s.panel.st = .off → s.panel.step = .none → t.pmu.powered = 1 ∧ t.pmu.pwrEn = s.pmu.pwrEn &&& 1 ∧ t.dk.running = false ∧
        t.panel.en = s.panel.en ∧ t.nvm.bytes = s.nvm.bytes ∧ t.dmc.mem = [] ∧ t.cal.profile = .none)) ∧
  (∀ s : State, s.vddaUp = true → s.pmu.tripped = true → ∃ t, exec .thermalTrip s = .next t ∧
    t = { s with fresh := t.fresh, pmu := { s.pmu with tripSeen := t.pmu.tripSeen, tripMore := t.pmu.tripMore } } ∧
    (∀ e ∈ s.tripCauses, e.1 ∈ t.pmu.tripSeen) ∧ (∀ k ∈ s.pmu.tripMore, k ∈ t.pmu.tripMore) ∧
    ((∀ e ∈ s.tripCauses, e.1 ∈ s.pmu.tripSeen) → t = s)) ∧
  (∀ (s : State) (node mode tick : Nat) (v : Int), s.pmu.tripDetail = some (node, v, mode, tick) → s.pmu.tripped = true →
    s.pmu.powered = 1 → s.nvm.jobs = [] → s.pmu.tripPaged = false → ∃ t, exec .tripPageWrite s = .next t ∧ t.pmu.tripPaged = true ∧
      (s.nvmProtected 64 = false → ∃ j, t.nvm.jobs = [j] ∧ 64 ≤ j.page ∧ j.page < 80 ∧ j.writer = 1 ∧ leAt j.bytes 4 2 = 4 ∧
        leAt j.bytes 8 8 = t.cntVal 4 % 2 ^ 64 ∧ leAt j.bytes 44 4 = maskOf s.pmu.tripMore % 2 ^ 32 ∧ t.nvm.bytes = s.nvm.bytes) ∧ t.plates = s.plates ∧ t.regs = s.regs) ∧
  ∀ s : State, s.pmu.tripped = true → s.pmu.powered = 1 →
    (s.thm.restartSince = none ∨ s.pmu.stuckOff = true → exec .thermalRestart s = .next s) ∧
    ∀ t0, s.thm.restartSince = some t0 → (s.now < t0 + 2500000000 → exec .thermalRestart s = .next s) ∧
      (t0 + 2500000000 ≤ s.now → s.pmu.stuckOff = false → ∃ t, exec .thermalRestart s = .next t ∧ t.pmu.tripped = false ∧ t.pmu.boot = .supplies ∧
        t.pmu.retryAt = none ∧ (s.rf idPmuBoot 1 0 < 3 → t.pmu.pwrEn.getLsbD 0 = true) ∧ t.nvm = s.nvm ∧ t.panel = s.panel ∧ t.dmc = s.dmc)

/-! ### Calibration (chapter 19) -/

/-- BRACKET_RUN, BRACKET_STATUS and PPI_LOAD: an unknown class, a frozen class G, a bracket that runs and a raster that runs refuse them;
otherwise class G begins the rebuild, class L begins with the set that is not in use as its target, the profile load begins, and
BRACKET_STATUS answers the class's count, time and flags. Once a second the firmware reads and clears every running quadrant's histograms
and adds the wear of R449; every FIELD minute advances counter 1 and L_MIN, and the 3,840th starts an L bracket; a class's count that is
ahead of its NVM copy is written at most every ten minutes. -/
def Obligations.BracketsStartWearAndCount : Prop :=
  (∀ (s : State) (c : Cmd),
    (s.mayStart c 0x0403 = true →
      (1 < c.arg 0 1 → ∃ t, exec (.bracketRun c) s = .next t ∧ Answered s t c 2 0x0108 []) ∧
      (c.arg 0 1 = 0 → bit (s.reg idRfcCtrl) 1 = true → ∃ t, exec (.bracketRun c) s = .next t ∧ Answered s t c 2 0x0409 []) ∧
      (c.arg 0 1 = 0 → bit (s.reg idRfcCtrl) 1 = false → (s.rfc.busy = true ∨ s.rfc.ready = true ∨ s.cal.gCmd ≠ none) →
        ∃ t, exec (.bracketRun c) s = .next t ∧ Answered s t c 2 0x0408 []) ∧
      (c.arg 0 1 = 0 → bit (s.reg idRfcCtrl) 1 = false → s.rfc.busy = false → s.rfc.ready = false → s.cal.gCmd = none →
        ∃ t, exec (.bracketRun c) s = .next t ∧ t.rfc.busy = true ∧ t.rfc.gen = (s.rfc.gen + 1) % 2 ^ 16 ∧ t.rfc.busyAt = s.now ∧
          t = { s with rfc := t.rfc, cal := { s.cal with gCmd := some c }, dk := { s.dk with started := s.dk.started ++ [c] } }) ∧
      (c.arg 0 1 = 1 → s.cal.lBusy = true ∨ s.cal.loading = true → ∃ t, exec (.bracketRun c) s = .next t ∧ Answered s t c 2 0x0408 []) ∧
      (c.arg 0 1 = 1 → s.cal.lBusy = false → s.cal.loading = false → ∃ t, exec (.bracketRun c) s = .next t ∧
        t = { s with cal := t.cal, dk := { s.dk with started := s.dk.started ++ [c] } } ∧
        t.cal = { s.cal with lBusy := true, lCmd := some c, lTicks := 0, lByHours := false, lTarget := t.cal.lTarget } ∧
        (∀ n, t.cal.lTarget = some n → n < 2 ∧ n ∉ s.dodgeInForce) ∧
        (t.cal.lTarget = none → 0 ∈ s.dodgeInForce ∧ 1 ∈ s.dodgeInForce))) ∧
    (s.mayStart c 0x0404 = true →
      (1 < c.arg 0 1 → ∃ t, exec (.bracketStatus c) s = .next t ∧ Answered s t c 2 0x0108 []) ∧
      (c.arg 0 1 ≤ 1 → ∃ t p, exec (.bracketStatus c) s = .next t ∧ Answered s t c 0 0 p ∧
        let b := if c.arg 0 1 = 0 then s.cal.g else s.cal.l
        leAt p 0 4 = b.count % 2 ^ 32 ∧ leAt p 4 4 = b.sec % 2 ^ 32 ∧ leAt p 8 4 = b.ns % 2 ^ 32 ∧
        (byteAt p 12).getLsbD 0 = b.valid ∧ (byteAt p 12).getLsbD 1 = b.netlock ∧
        (c.arg 0 1 = 1 → (byteAt p 12).getLsbD 2 = s.cal.lBusy))) ∧
    (s.mayStart c 0x0401 = true →
      (s.rasterRuns = true → ∃ t, exec (.ppiLoad c) s = .next t ∧ Answered s t c 2 0x020F []) ∧
      (s.rasterRuns = false → (s.cal.lBusy = true ∨ s.cal.loading = true) → ∃ t, exec (.ppiLoad c) s = .next t ∧ Answered s t c 2 0x0408 []) ∧
      (s.rasterRuns = false → s.cal.lBusy = false → s.cal.loading = false →
        exec (.ppiLoad c) s = .next { s with cal := { s.cal with loading := true }, dk := { s.dk with started := s.dk.started ++ [c] } }))) ∧
  (∀ s : State, s.fw = true → s.canonical = true →
    (s.now < s.cal.histAt + 250000000 → exec .driveHistogramRead s = .next s) ∧
    (s.active = true → s.cal.histAt + 250000000 ≤ s.now → ∃ t, exec .driveHistogramRead s = .next t ∧ t.cal.histAt = s.now ∧
      t = { s with easels := t.easels, cal := { s.cal with histAt := s.now, wear := t.cal.wear } } ∧
      (∀ q : Fin 4, t.easel q = if s.easelRuns q then { s.easel q with hist := [] } else s.easel q) ∧
      ∀ (q : Fin 4) (r ch b n : Nat), ch < 3 → b < 16 → r ∈ s.regions → s.qw ≤ 32 → s.easelRuns q = true →
        (s.easel q).hist = [(16 * (3 * r + ch) + b, n)] → (∀ z : Fin 4, z ≠ q → s.easelRuns z = true → (s.easel z).hist = []) →
        t.wearOf r ch = min (s.wearOf r ch + n * s.agingRate ch b * s.agingTf (s.easel q).band.band / 64) (2 ^ 64 - 1) ∧
        ∀ r' ∈ s.regions, ∀ ch', ch' < 3 → (r', ch') ≠ (r, ch) → t.wearOf r' ch' = s.wearOf r' ch') ∧
    (s.pmu.mode ≠ .field ∨ s.now < s.cal.minuteAt + 15000000000 → exec .fieldMinute s = .next s) ∧
    (s.pmu.mode = .field → s.cal.minuteAt + 15000000000 ≤ s.now → ∃ t, exec .fieldMinute s = .next t ∧ t.cal.minuteAt = s.now ∧
      t.cal.lMin = min (s.cal.lMin + 1) 4095 ∧ t.cntVal 1 = s.cntVal 1 + 1 ∧ (∀ k, k ≠ 1 → t.cntVal k = s.cntVal k) ∧
      t = { s with cal := t.cal, cnt := t.cnt, nvm := t.nvm, regs := t.regs } ∧
      ((s.cntVal 1 + 1) % 60 ≠ 0 → t.nvm = s.nvm ∧ t.regs = s.regs) ∧
      ((s.cntVal 1 + 1) % 60 = 0 → s.nvmProtected 16 = false → s.nvm.jobs = [] → s.pmu.tripped = false → ∃ j, t.nvm.jobs = [j] ∧ 16 ≤ j.page ∧ j.page < 32 ∧
        leAt j.bytes 4 2 = 1 ∧ leAt j.bytes 8 8 = (s.cntVal 1 + 1) % 2 ^ 64) ∧
      (s.cal.lMin = 3839 → bit (s.reg idCalCtrl) 0 = true → s.cal.lBusy = false → s.cal.loading = false →
        t.cal.lBusy = true ∧ t.cal.lByHours = true ∧ t.cal.lCmd = none)) ∧
    ∀ cls : Fin 2,
      (s.cal.dirty.getLsbD cls.val = false ∨ s.now < s.cal.savedAt[cls] + 150000000000 → exec (.bracketCountSave cls) s = .next s) ∧
      (s.cal.dirty.getLsbD cls.val = true → s.cal.savedAt[cls] + 150000000000 ≤ s.now →
        let count := (if cls = 0 then s.cal.g else s.cal.l).count
        ∃ t, exec (.bracketCountSave cls) s = .next t ∧ t.cal.dirty.getLsbD cls.val = false ∧ t.cal.savedAt[cls] = s.now ∧
          t.cal = { s.cal with dirty := t.cal.dirty, savedAt := t.cal.savedAt } ∧ t.cntVal (2 + cls.val) = count ∧
          t = { s with cal := t.cal, cnt := t.cnt, nvm := t.nvm, regs := t.regs } ∧
          (s.nvmProtected (16 * (2 + cls.val)) = false → s.nvm.jobs = [] → s.pmu.tripped = false → t.regs = s.regs ∧ ∃ j, t.nvm.jobs = [j] ∧
            16 * (2 + cls.val) ≤ j.page ∧ j.page < 16 * (3 + cls.val) ∧ leAt j.bytes 4 2 = 2 + cls.val ∧
            leAt j.bytes 8 8 = count % 2 ^ 64)))

/-- The L bracket's end: it counts, takes its time and set, restarts L_MIN and raises E555; without a target for 64 ticks, with an
undeliverable base block, or with a failed histogram read it fails with its cause, counts nothing and raises E556; a region with the least
loss keeps its base gains. -/
def Obligations.LuminanceBracketsEnd : Prop :=
  (∀ s : State, s.fw = true → s.cal.lBusy = true → s.up dCtrl = true → s.locked 1 = true → s.up dAon = true → s.canonical = true →
    let failed (t : State) (cause : Nat) : Prop := t.cal.l = s.cal.l ∧ t.cal.lSet = s.cal.lSet ∧ t.evStatus 556 = true ∧
      (∀ c, s.cal.lCmd = some c → s.waits c = true → (t.tray c.tray).held = (s.tray c.tray).held ++
        [⟨s.now, c.tag, c.opcode, 3, true, cause, List.replicate 24 0, c.index⟩] ∧ t.dk.started = s.dk.started.erase c)
    (s.cal.lTarget = none → (∀ h, exec (.lBracketDone h) s = .next s) ∧
      (s.cal.lTicks < 64 → exec .lBracketTargetTimeout s = .next s) ∧
      (64 ≤ s.cal.lTicks → ∃ t, exec .lBracketTargetTimeout s = .next t ∧ failed t 1 ∧ t.dmc = s.dmc)) ∧
    (∀ set, s.cal.lTarget = some set → exec .lBracketTargetTimeout s = .next s ∧
      (s.bracketFree set = false → ∀ h, exec (.lBracketDone h) s = .next s) ∧
      (s.bracketFree set = true → (∀ h, (h = .base ∨ ∃ (q : Fin 4) (n : Nat), n < 8 ∧ s.basePlane q n = none) →
        ∃ t, exec (.lBracketDone h) s = .next t ∧ failed t 2 ∧ t.plates = s.plates ∧ t.expo = s.expo ∧
          (s.basePlane 0 0 = none → t.dmc = s.dmc)) ∧
      ((∀ (q : Fin 4) (n : Nat), n < 8 → s.basePlane q n ≠ none) → (∃ t, exec (.lBracketDone .hist) s = .next t ∧ failed t 3 ∧ t.plates = s.plates ∧ t.expo = s.expo) ∧
        ∃ t, exec (.lBracketDone .done) s = .next t ∧ t.cal.lBusy = false ∧ t.cal.lTarget = none ∧ t.cal.lSet = set ∧ t.cal.lMin = 0 ∧
          t.cal.lAt = some s.now ∧ t.cal.l.count = s.cal.l.count + 1 ∧ t.cal.l.sec = secOf (wOf (s.view s.tickTb)) ∧
          t.cal.l.ns = nsOf (wOf (s.view s.tickTb)) ∧ t.cal.l.netlock = s.netlock ∧ t.cal.g = s.cal.g ∧ t.evStatus 555 = true ∧
          t.plates = s.plates ∧ t.expo = s.expo ∧
          ∀ c, s.cal.lCmd = some c → s.waits c = true → (t.tray c.tray).held = (s.tray c.tray).held ++ [⟨s.now, c.tag, c.opcode, 0, true, 0,
            padTo 24 (leBytes 1 set ++ leBytes 1 (if t.cal.clipped then 1 else 0) ++ [0, 0] ++ leBytes 4 (s.cal.l.count + 1)), c.index⟩])))) ∧
  ∀ (s : State) (q : Fin 4) (n w x y : Nat) (base : List Byte), 2 ≤ n → n < 5 →
    s.lightLoss (s.hogelRegion q x y) (n - 2) = s.lossMin (n - 2) → s.bracketElem q n w base x y = (byteAt base (y * w + x)).toNat

/-! ### Modes, transitions and sleep (chapter 21) -/

/-- MODE_GET and MODE_SET, POWER_READ and the SERVICE tools: the five values of MODE_GET; a move outside R485, without a profile or without
the panel is refused with its reason, one that is allowed becomes the running transition; POWER_READ answers the masks and the selected
meters; pattern and capture commands wait for their tick or line. -/
def Obligations.ModeAndServiceCommandsAnswer : Prop :=
  ∀ (s : State) (c : Cmd),
    (s.mayStart c 0x0003 = true → ∃ t p, exec (.modeGet c) s = .next t ∧ Answered s t c 0 0 p ∧ leAt p 0 1 = modeCode s.pmu.mode ∧
      leAt p 1 1 = (match s.pmu.trans with | some x => modeCode x.target | none => modeCode s.pmu.mode) ∧
      (s.pmu.trans ≠ none → (byteAt p 2).getLsbD 0 = true) ∧ (byteAt p 2).getLsbD 1 = s.pmu.rest ∧
      leAt p 3 1 = s.rf idWakeStatus 7 0 ∧ leAt p 4 1 = s.rf idBor 7 0) ∧
    (s.mayStart c 0x0004 = true →
      let v := c.arg 0 1
      (s.pmu.trans ≠ none → ∃ t, exec (.modeSet c) s = .next t ∧ Answered s t c 2 0x0C02 []) ∧
      (s.pmu.trans = none → (16 ≤ v ∨ v % 8 = 0 ∨ v % 8 = 7) → ∃ t, exec (.modeSet c) s = .next t ∧ Answered s t c 2 0x0C01 []) ∧
      ∀ m, s.pmu.trans = none → v < 16 → v % 8 = modeCode m →
        let rest := v.testBit 3
        let legal := (rest = true → m = .standby) ∧ ((s.pmu.mode = .standby ∧ (m = .flat ∨ m = .field ∨ m = .service ∨ (m = .standby ∧ rest = true))) ∨
          ((s.pmu.mode = .flat ∨ s.pmu.mode = .field) ∧ m ≠ s.pmu.mode) ∨
          (s.pmu.mode = .service ∧ (m = .standby ∨ m = .flat ∨ m = .field)))
        (¬ legal → ∃ t, exec (.modeSet c) s = .next t ∧ Answered s t c 2 0x0C01 []) ∧
        (legal → (m = .flat ∨ m = .field) → s.cal.profile ≠ .valid → ∃ t, exec (.modeSet c) s = .next t ∧ Answered s t c 2 0x040A []) ∧
        (legal → (m = .safelight ∨ m = .latent) → s.panel.st ≠ .on → ∃ t, exec (.modeSet c) s = .next t ∧ Answered s t c 2 0x0C06 []) ∧
        (legal → s.pmu.mode = .standby → m ≠ .standby → (m = .service ∨ s.cal.profile = .valid) → exec (.modeSet c) s = .next
          { s with pmu := { s.pmu with trans := some ⟨some c, m, rest, s.now, false⟩ }, dk := { s.dk with started := s.dk.started ++ [c] } }) ∧
        (legal → m = .standby → ∃ t, exec (.modeSet c) s = .next t ∧
          t.pmu = { s.pmu with trans := some ⟨some c, .standby, rest, s.now, false⟩ } ∧ (s.active = true → t.expo.pend = []) ∧
          t.dmc = s.dmc ∧ t.plates = s.plates ∧ t.nvm.bytes = s.nvm.bytes ∧ t.cnt.lastMode = 3)) ∧
    (s.mayStart c 0x0903 = true → ∃ t p, exec (.powerRead c) s = .next t ∧ Answered s t c 0 0 p ∧ leAt p 0 4 = s.pmu.powered.toNat ∧
      leAt p 4 4 = s.pmu.clamped.toNat ∧ leAt p 8 4 = ((List.range 24).map fun n =>
        if (nodeDomains n).any fun d => (c.arg 0 4).testBit d then s.thm.meters.getD n 0 else 0).sum % 2 ^ 32) ∧
    (s.mayStart c 0x0B01 = true → s.expo.patternNext = none →
      (4 < c.arg 0 1 ∨ 15 < c.arg 1 1 → ∃ t, exec (.servicePattern c) s = .next t ∧ Answered s t c 2 0x0C08 []) ∧
      (c.arg 0 1 ≤ 4 → c.arg 1 1 ≤ 15 → exec (.servicePattern c) s = .next { s with
        dk := { s.dk with started := s.dk.started ++ [c] }
        expo := { s.expo with patternNext := some (c, ⟨c.arg 0 1, c.arg 1 1, c.arg 4 2, c.arg 6 2, c.arg 8 2⟩) } })) ∧
    (s.mayStart c 0x0B02 = true → s.loads.capture = none →
      let n := match c.arg 0 1 with | 0 => 8 * 512 * s.qw | 1 => 4 * 512 * s.qw | _ => s.chunkSize * s.qw
      (2 < c.arg 0 1 ∨ 3 < c.arg 1 1 ∨ 16 * s.qh ≤ c.arg 2 2 → ∃ t, exec (.serviceCapture c) s = .next t ∧ Answered s t c 2 0x0C08 []) ∧
      (c.arg 0 1 ≤ 2 → c.arg 1 1 ≤ 3 → c.arg 2 2 < 16 * s.qh → resultOk (c.arg 8 8) n = false →
        ∃ t, exec (.serviceCapture c) s = .next t ∧ Answered s t c 2 0x010A []) ∧
      (c.arg 0 1 ≤ 2 → c.arg 1 1 ≤ 3 → c.arg 2 2 < 16 * s.qh → resultOk (c.arg 8 8) n = true → ∃ t, exec (.serviceCapture c) s = .next t ∧
        t = { s with loads := t.loads, dk := { s.dk with started := s.dk.started ++ [c] } } ∧
        ∃ k, t.loads = { s.loads with capture := some (c, 16, k) }))

/-- Transitions, sleep and wake: a transition completes at its frame tick 2 ms after the MODE_SET, or once its domains are down, and fails
without its panel; the sleep request loses an edge on WAKE and lets a held level wake at once; a wake from rest resumes or reopens the load
window, one from SAFELIGHT starts the supplies; the timer and the window refresh. -/
def Obligations.TransitionsCompleteAndDevicesSleep : Prop :=
  (∀ (s : State) (x : Transition), s.pmu.trans = some x → s.fw = true → s.canonical = true → s.up dAon = true →
    let moved (t : State) : Prop := t.pmu.mode = x.target ∧ t.pmu.rest = x.rest ∧ t.pmu.trans = none ∧ t.evStatus 0 = true
    let finished (t : State) : Prop := moved t ∧ ∀ c, x.cmd = some c → s.waits c = true →
      (t.tray c.tray).held = (s.tray c.tray).held ++ [⟨s.now, c.tag, c.opcode, 0, true, 0, List.replicate 24 0, c.index⟩]
    (s.active = true → activeMode x.target = true →
      (s.now < x.at_ + 500000 ∨ s.frameNext x.target = false → exec .modeSwitchAtTick s = .next s) ∧
      (s.pmu.sleep = .awake → x.at_ + 500000 ≤ s.now → s.frameNext x.target = true → s.wanted &&& ~~~ s.pmu.powered = 0 → x.rest = false →
        ∃ t, exec .modeSwitchAtTick s = .next t ∧ finished t ∧ t.expo.pend = s.expo.pend ∧ t.regs.staged = s.regs.staged ∧
          (x.target = .field ∨ x.target = .service → ∀ q : Fin 4, (t.easels[q]).pfsValid = false))) ∧
    (s.pmu.mode = .standby → s.pmu.sleep = .awake → x.target = .service → x.second = true → x.rest = false → ∃ t, exec .modeSwitchAtTick s = .next t ∧ finished t) ∧
    (s.pmu.mode = .standby → s.pmu.sleep = .awake → (x.target = .flat ∨ x.target = .field) → x.second = true → (s.panel.st = .off ∨ s.panel.st = .safeSeq) →
      ∃ t, exec .modeSwitchAtTick s = .next t ∧ t.pmu.mode = .standby ∧ t.pmu.trans = none ∧ t.evStatus 1 = true) ∧
    (x.target = .standby → s.pmu.sleep = .awake → s.stopped x = true → s.pmu.powered = s.modeMask .standby →
      (x.rest = true → exec .modeSwitchAtTick s = .next { s with pmu := { s.pmu with sleep := .entering } }) ∧
      (x.rest = false → ∃ t, exec .modeSwitchAtTick s = .next t ∧ moved t ∧ (s.expo.pend = [] → finished t) ∧
        (s.active = true → t.expo.pend = []) ∧ t.pmu.sleep = s.pmu.sleep)) ∧
    (∀ edge level ucie : Bool, x.target = .standby → x.rest = true → s.pmu.mode = .standby → s.pmu.sleep = .entering → s.flushed = true →
      s.wakeNow level ucie = [] → (edge = false ∨ bit (s.reg idWakeCfg) 2 = false) → ∃ t, exec (.sleepRequest edge level ucie) s = .next t ∧
      t.pmu.sleep = .resting ∧ t.pmu.sleepAt = s.now ∧ t.pmu.rest = true ∧ t.pmu.trans = none ∧ t.pmu.retained = true ∧
      t.dmc = s.dmc ∧ ∀ b : Fin 8, t.pmu.sigs[b] = bankSig t.pmu.banks[b] b.val)) ∧
  (∀ (s : State) (edge level ucie : Bool), s.pmu.sleep = .entering → s.pmu.trans = none → s.canonical = true → s.pmu.wakeLatched = none → s.pmu.alarm = false →
    s.pmu.mode = .safelight → s.pmu.powered = 1 → s.pmu.pwrEn = 0 → s.pmu.lowering = none →
    let cfg := s.reg idWakeCfg
    let pin := bit cfg 2 = true ∧ ((fld cfg 9 8 = 0 ∧ level = true) ∨ (fld cfg 9 8 = 1 ∧ level = false))
    (¬ pin → ucie = false ∨ bit cfg 1 = false → ∃ t, exec (.sleepRequest edge level ucie) s = .next t ∧ t.pmu.sleep = .safelight ∧
      t.pmu.sleepAt = s.now ∧ t.pmu.powered = 1 ∧ t.nvm = s.nvm ∧
      (edge = true → bit cfg 2 = true → 2 ≤ fld cfg 9 8 → bit (t.reg idWakeStatus) 31 = true) ∧
      (edge = false ∨ bit cfg 2 = false ∨ fld cfg 9 8 < 2 → t = { s with pmu := { s.pmu with sleep := .safelight, sleepAt := s.now } })) ∧
    (pin → ucie = false ∨ bit cfg 1 = false → ∃ t, exec (.sleepRequest edge level ucie) s = .next t ∧ t.pmu.sleep = .awake ∧
      t.pmu.boot = .supplies ∧ t.pmu.mode = .standby ∧ (s.rf idPmuBoot 1 0 < 3 → t.pmu.pwrEn.getLsbD 0 = true) ∧ t.rf idWakeStatus 7 4 = 2)) ∧
  (∀ (s : State) (src : WakeSrc) (bad : BitVec 8), s.canonical = true → src ≠ .thermal →
    (s.wakeEnabled src = false → exec (.wake src bad) s = .next s) ∧
    (s.wakeEnabled src = true → s.wakeHolds src = true →
      (s.pmu.sleep = .safelight → ∃ t, exec (.wake src bad) s = .next t ∧ t.pmu.sleep = .awake ∧ t.pmu.boot = .supplies ∧
        t.rf idWakeStatus 7 4 = wakeCode src ∧ (s.rf idPmuBoot 1 0 < 3 → t.pmu.pwrEn.getLsbD 0 = true) ∧ t.nvm = s.nvm ∧ t.ports = s.ports) ∧
      (s.pmu.sleep = .resting → s.up dCtrl = true → s.locked 1 = true → s.up dAon = true →
        let fail := (s.banksChange bad).banksFailed
        ∃ t, exec (.wake src bad) s = .next t ∧ t.pmu.sleep = .awake ∧
        t.pmu.rest = false ∧ t.rf idWakeStatus 7 4 = wakeCode src ∧ t.rf idRet 23 16 = fail ∧
        (fail = 0 → t.trays = s.trays ∧ t.dmc = s.dmc ∧ t.dk = { s.dk with lastBeat := s.now, notices := t.dk.notices } ∧ t.evStatus 0 = true) ∧
        (fail &&& s.rf idRet 31 24 ≠ 0 → t.dk.running = false ∧ t.pmu.boot = .waitFw ∧ t.pmu.window = true ∧ t.evStatus 552 = true)) ∧
      (s.pmu.sleep = .entering → s.pmu.trans = none → s.fw = true → ∃ t, exec (.wake src bad) s = .next t ∧ t.pmu.sleep = .awake ∧
        t.pmu.mode = .standby ∧ t.rf idWakeStatus 7 4 = wakeCode src ∧ t.evStatus 0 = true ∧ t.nvm.bytes = s.nvm.bytes))) ∧
  (∀ (s : State) (x : Ist), s.canonical = true → s.pmu.sleep = .resting → bit (s.reg idWakeCfg) 1 = true →
    (s.ucie[x.m]).link = .lowPower ∨ (s.ucie[x.m]).link = .up →
    ∃ u : State, u.pmu.sleep = .awake ∧ u.rf idWakeStatus 7 4 = 1 ∧ exec (.pwr x) s = .next (u.receive x) ∧
      exec (.rd x) s = .next (u.receive x) ∧ exec (.doorbell x) s = .next (u.receive x)) ∧
  (∀ (s : State) (bad : BitVec 8), s.canonical = true →
    let due := s.pmu.sleepAt + 250000 * (s.reg idAonTimer).toNat ≤ s.now
    (s.pmu.sleep = .awake ∨ (s.reg idAonTimer).toNat = 0 ∨ ¬ due ∨ bit (s.reg idWakeCfg) 4 = false →
      exec (.aonTimerExpire bad) s = .next s) ∧
    (bit (s.reg idWakeCfg) 4 = true → 0 < (s.reg idAonTimer).toNat → due →
      (s.pmu.sleep = .safelight → ∃ t, exec (.aonTimerExpire bad) s = .next t ∧ t.pmu.sleep = .awake ∧ t.pmu.boot = .supplies ∧
        t.rf idWakeStatus 7 4 = 4 ∧ t.nvm = s.nvm ∧ t.ports = s.ports) ∧
      (s.pmu.sleep = .resting → ∃ t, exec (.aonTimerExpire bad) s = .next t ∧ t.pmu.sleep = .awake ∧ t.pmu.rest = false ∧
        t.rf idWakeStatus 7 4 = 4))) ∧
  ∀ s : State, (s.pmu.refreshAt = none → exec .safelightRefresh s = .next s) ∧
    ∀ t0, s.pmu.refreshAt = some t0 → (s.now < t0 → exec .safelightRefresh s = .next s) ∧
      (t0 ≤ s.now → ∃ t, exec .safelightRefresh s = .next t ∧
        t = { s with ports := t.ports, pmu := { s.pmu with refreshAt := some (t0 + 250000000 / max 1 (s.rf idSafeCtrl 4 0)) } } ∧
        t.ports[(2 : Fin 4)] = s.ports[(2 : Fin 4)] ∧ t.ports[(3 : Fin 4)] = s.ports[(3 : Fin 4)] ∧
        ∀ b : Fin 2,
          let g := s.safeSeg b.val s.pmu.safeCut
          let h := s.rf idSafeSize 31 16
          let x : Fin 4 := Fin.ofNat 4 b.val
          let sent := (s.ports[x]).sbSent
          let sent' := (t.ports[x]).sbSent
          (g.2 = 0 → t.ports[x] = s.ports[x]) ∧
          (g.2 ≠ 0 → (s.ports[x]).sb ≠ [] → sent' = sent ∧ (t.ports[x]).sb.length = (s.ports[x]).sb.length + h) ∧
          (g.2 ≠ 0 → (s.ports[x]).sb = [] → sent'.length = sent.length + h ∧ ∀ i, i < h → sent'[h - 1 - i]? = some (sbFrame sbAll 5
            (windowPayload g.1 (s.rf idSafePos 31 16 + i) g.2 (s.rf idSafeCtrl 8 8) ((List.range (segBytes g.2)).map fun k =>
              mapGet dram0 s.pmu.aonSram (i * s.safeRow s.pmu.safeCut + (if b = 0 then 0 else segBytes (s.safeSeg 0 s.pmu.safeCut).2) + k))))))

/-! ### The NVM (chapter 22) -/

/-- The NVM: a page write ends with its page VALID and every other page as it was, counts, answers what it was made for, and lets the next
request run, which protection may have to refuse by then; NVM_READ and LOG_READ wait behind what arrived before them, return pages with
their states, resp. the newest records, meet a TORN page with E553, and keep their results while the stack takes no requests; NVM_WRITE
waits at the port for a page of the user area or the factory quarter; COUNTER_READ answers the running and the stored value. -/
def Obligations.NvmPagesAreWrittenAndRead : Prop :=
  (∀ s : State, s.nvm.jobs = [] → exec .nvmPageWriteDone s = .next s) ∧
  (∀ (s : State) (j : NvmJob) (rest : List NvmJob), s.nvm.jobs = j :: rest → s.up dAon = true → s.canonical = true → j.bytes.length = 64 →
    let answered (t : State) (c : Cmd) (status reason : Nat) : Prop := (t.tray c.tray).held = (s.tray c.tray).held ++
      [⟨s.now, c.tag, c.opcode, status, true, reason, List.replicate 24 0, c.index⟩]
    ∃ t, exec .nvmPageWriteDone s = .next t ∧ t.nvmPage j.page = j.bytes ∧ t.nvmState j.page = ⟨0, 0, 0, 0⟩ ∧
      (∀ p, p ≠ j.page → t.nvmPage p = s.nvmPage p ∧ t.nvmState p = s.nvmState p) ∧ t.plates = s.plates ∧
      (rest = [] ∨ (∃ k l, rest = k :: l ∧ k.use.writes = true ∧ s.nvmProtected k.page = false) → t.dmc = s.dmc ∧ t.nvm.jobs = rest ∧
        (j.use = .record ∨ j.use = .tripPage → t.ctr idNvmWrites = (s.ctr idNvmWrites + 1) % 2 ^ 64 ∧
          t = { s with nvm := t.nvm, regs := { s.regs with ctrs := t.regs.ctrs } }) ∧
        (∀ c, j.use = .save c → s.waits c = true → answered t c 0 0) ∧
        (∀ c, j.use = .ppi c → s.waits c = true → t.cal.profile = .valid ∧ t.cal.loading = false ∧ answered t c 0 0) ∧
        (∀ c, j.use = .userWrite c → (s.up dCtrl = true → s.locked 1 = true → t.evStatus 554 = true) ∧
          (s.waits c = true → answered t c 0 0))) ∧
      (∀ k c, j.use = .record → rest = [k] → k.use = .userWrite c → s.nvmProtected k.page = true → s.waits c = true → k.page ≠ j.page →
        t.nvm.jobs = [] ∧ t.nvmPage k.page = s.nvmPage k.page ∧ answered t c 2 0x0A01)) ∧
  ∀ (s : State) (c : Cmd), s.canonical = true →
    let begun : State := { s with dk := { s.dk with started := s.dk.started ++ [c] } }
    (s.mayStart c 0x0A01 = true →
      let p := c.arg 0 2
      let n := c.arg 2 2
      let a := c.arg 8 8
      let legal := 1 ≤ n ∧ n ≤ 64 ∧ p + n ≤ 4096 ∧ resultOk a (72 * n) = true
      (4095 < p ∨ 4095 < n → ∃ t, exec (.nvmRead c) s = .next t ∧ Answered s t c 2 0x0A03 []) ∧
      (p ≤ 4095 → n ≤ 4095 → n = 0 ∨ 64 < n → ∃ t, exec (.nvmRead c) s = .next t ∧ Answered s t c 2 0x0108 []) ∧
      (p ≤ 4095 → 1 ≤ n → n ≤ 64 → 4096 < p + n → ∃ t, exec (.nvmRead c) s = .next t ∧ Answered s t c 2 0x0A03 []) ∧
      (p ≤ 4095 → 1 ≤ n → n ≤ 64 → p + n ≤ 4096 → resultOk a (72 * n) = false →
        ∃ t, exec (.nvmRead c) s = .next t ∧ Answered s t c 2 0x010A []) ∧
      (legal → s.nvm.jobs ≠ [] → exec (.nvmRead c) s = .next { begun with nvm := { s.nvm with jobs := s.nvm.jobs ++ [⟨0, [], 0, .read c⟩] } }) ∧
      (legal → s.nvm.jobs = [] → s.resultRoom a (72 * n) = true → (∀ i, i < n → (s.nvmState (p + i)).st ≠ 2) →
        ∃ t u, exec (.nvmRead c) s = .next t ∧ Answered u t c 0 0 [] ∧ DramEffect begun u ∧
          (∀ x, a = 0 ∨ x < a ∨ a + 72 * n ≤ x → t.dramByte x = s.dramByte x) ∧
          (a ≠ 0 → ∀ i, i < n → t.dramRead (a + 72 * i) 64 = s.nvmPage (p + i) ∧
            let x := s.nvmState (p + i)
            t.dramByte (a + 72 * i + 64) = BitVec.ofNat 8 (x.st + 4 * (if x.ce = 0 then 0 else 1) + 8 * (if x.ue = 0 then 0 else 1)) ∧
            t.dramByte (a + 72 * i + 65) = BitVec.ofNat 8 x.torn ∧ t.dramByte (a + 72 * i + 66) = BitVec.ofNat 8 x.ue)) ∧
      (legal → s.nvm.jobs = [] → s.resultRoom a (72 * n) = false → (∀ i, i < n → (s.nvmState (p + i)).st ≠ 2) →
        ∃ bytes, bytes.length = 72 * n ∧ exec (.nvmRead c) s = .next { begun with nvm := { s.nvm with results := s.nvm.results ++ [(c, bytes)] } }) ∧
      (legal → s.nvm.jobs = [] → (s.nvmState p).st = 2 → p ∉ s.nvm.tornSeen → s.up dAon = true →
        ∃ t, exec (.nvmRead c) s = .next t ∧ t.evStatus 553 = true ∧ p ∈ t.nvm.tornSeen)) ∧
    (s.mayStart c 0x0A02 = true →
      let p := c.arg 0 2
      let a := c.arg 8 8
      (4095 < p → ∃ t, exec (.nvmWrite c) s = .next t ∧ Answered s t c 2 0x0A03 []) ∧
      (p < 2560 → ∃ t, exec (.nvmWrite c) s = .next t ∧ Answered s t c 2 0x0A02 []) ∧
      (2560 ≤ p → p ≤ 4095 → s.nvmProtected p = true → ∃ t, exec (.nvmWrite c) s = .next t ∧ Answered s t c 2 0x0A01 []) ∧
      (2560 ≤ p → p ≤ 4095 → s.nvmProtected p = false →
        (hostRange a 64 = false → ∃ t, exec (.nvmWrite c) s = .next t ∧ Answered s t c 2 0x010A []) ∧
        (hostRange a 64 = true → s.room .firmware a 64 = false → exec (.nvmWrite c) s = .next s) ∧
        (hostRange a 64 = true → s.room .firmware a 64 = true → ∃ t, exec (.nvmWrite c) s = .next t ∧
          (∃ v, DramEffect begun v ∧ t = { v with nvm := t.nvm }) ∧ t.nvm.bytes = s.nvm.bytes ∧ t.nvm.pages = s.nvm.pages ∧
          (s.pmu.tripped = false → s.badBeats a 64 = [] →
            t.nvm.jobs = s.nvm.jobs ++ [⟨p, s.dramRead a 64, 0, .userWrite c⟩])))) ∧
    (s.mayStart c 0x0A03 = true →
      let k := c.arg 0 1
      let usable (i : Nat) : Prop := s.nvmOk (16 * k + i) = true ∧ leAt (s.nvmPage (16 * k + i)) 4 2 = k
      (7 < k → ∃ t, exec (.counterRead c) s = .next t ∧ Answered s t c 2 0x0108 []) ∧
      (k ≤ 7 → ∃ t p, exec (.counterRead c) s = .next t ∧ Answered s t c 0 0 p ∧ leAt p 0 8 = s.cntVal k % 2 ^ 64 ∧
        ((∀ i, i < 16 → ¬ usable i) → leAt p 8 4 = 0 ∧ leAt p 12 4 = 0) ∧
        ∀ i, i < 16 → usable i → leAt (s.nvmPage (16 * k + i)) 0 4 ≤ leAt p 12 4 ∧
          ∃ j, j < 16 ∧ usable j ∧ leAt p 12 4 = leAt (s.nvmPage (16 * k + j)) 0 4 ∧ leAt p 8 4 = leAt (s.nvmPage (16 * k + j)) 8 4)) ∧
    (s.mayStart c 0x0A04 = true →
      let n := c.arg 0 2
      let a := c.arg 8 8
      let legal := 1 ≤ n ∧ n ≤ 64 ∧ resultOk a (64 * n) = true
      (4095 < n → ∃ t, exec (.logRead c) s = .next t ∧ Answered s t c 2 0x0A03 []) ∧
      (n = 0 ∨ (64 < n ∧ n ≤ 4095) → ∃ t, exec (.logRead c) s = .next t ∧ Answered s t c 2 0x0108 []) ∧
      (1 ≤ n → n ≤ 64 → resultOk a (64 * n) = false → ∃ t, exec (.logRead c) s = .next t ∧ Answered s t c 2 0x010A []) ∧
      (legal → s.nvm.jobs ≠ [] → exec (.logRead c) s = .next { begun with nvm := { s.nvm with jobs := s.nvm.jobs ++ [⟨0, [], 0, .logRead c⟩] } }) ∧
      (legal → s.nvm.jobs = [] → (∀ i, i < 512 → s.nvmOk (1024 + i) = false) →
        ∃ t u, exec (.logRead c) s = .next t ∧ Answered u t c 0 0 [] ∧ DramEffect begun u ∧ ∀ x, t.dramByte x = s.dramByte x) ∧
      ∀ i, i < 512 → legal → n = 1 → c.arg 2 2 = 0 → s.nvm.jobs = [] → a ≠ 0 → s.resultRoom a 64 = true → s.nvmOk (1024 + i) = true →
        (∀ j, j < 512 → j ≠ i → s.nvmOk (1024 + j) = true → leAt (s.nvmPage (1024 + j)) 0 4 < leAt (s.nvmPage (1024 + i)) 0 4) →
        ∃ t u, exec (.logRead c) s = .next t ∧ Answered u t c 0 0 [] ∧ DramEffect begun u ∧
          t.dramRead a 64 = s.nvmPage (1024 + i) ∧ ∀ x, x < a ∨ a + 64 ≤ x → t.dramByte x = s.dramByte x)

/-! ### Domains, supplies, clocks, start-up and resets (chapters 21, 23, 24) -/

/-- Domains: in ascending order a wanted domain is switched on, reset and unclamped with E549, waiting for its clock and, for EASEL and EC,
for VDD_CORE, whatever the stack's short training leaves: its pools restart, Contact starts anew with FAB, and each of its registers shows its
reset word but for the settings, which the firmware writes again (log entry 41); in descending order one that is not wanted is drained, clamped
and switched off with E549; UB is configured when it heard the host in its window, and goes down when it did not. -/
def Obligations.DomainsPowerInTheirOrder : Prop :=
  ∀ (s : State) (d : Fin 24) (fails : BitVec 64), s.canonical = true → s.up dAon = true →
    let b : BitVec 24 := BitVec.ofNat 24 (2 ^ d.val)
    let on := s.pmu.powered.getLsbD d.val
    let changed (t : State) : Prop := s.up dCtrl = true → s.locked 1 = true → t.evStatus 549 = true
    ((s.wanted.getLsbD d.val = false ∨ on = true ∨ ∃ e, e < d.val ∧ s.wanted.getLsbD e = true ∧ s.pmu.powered.getLsbD e = false) →
      exec (.domainPowerUp d fails) s = .next s) ∧
    (s.wanted.getLsbD d.val = true → on = false → (∀ e, e < d.val → s.wanted.getLsbD e = true → s.pmu.powered.getLsbD e = true) →
      s.suppliesGood = true → s.domClock d.val = true → s.pmu.trans = none →
      (d.val < 8 ∨ s.pmu.pwrPg.getLsbD 5 = true → ∃ t, exec (.domainPowerUp d fails) s = .next t ∧
        t.pmu.powered = s.pmu.powered ||| b ∧ t.pmu.clamped = s.pmu.clamped &&& ~~~ b ∧ t.up d.val = true ∧ changed t ∧
        (∀ k, k < 45 → (poolHome k).1 = d.val → k ≠ 44 → t.pool k = Pool.reset) ∧ (d.val = dFab → t.contact = Contact.reset) ∧
        (d.val ≠ dFab → ∀ id, domReg d.val id = true → t.reg id = poweredWord id (s.reg id))) ∧
      (8 ≤ d.val → s.pmu.pwrPg.getLsbD 5 = false → ∃ t, exec (.domainPowerUp d fails) s = .next t ∧ t.pmu.powered = s.pmu.powered ∧
        t.pmu.pwrEn = s.pmu.pwrEn ||| 0x20 ∧ t = { s with pmu := t.pmu })) ∧
    ((on = false ∨ s.wanted.getLsbD d.val = true ∨ d = 0 ∨
      (∃ e, d.val < e ∧ e < 24 ∧ s.pmu.powered.getLsbD e = true ∧ s.wanted.getLsbD e = false)) → exec (.domainPowerDown d) s = .next s) ∧
    (on = true → s.wanted.getLsbD d.val = false → d ≠ 0 →
      (∀ e, d.val < e → e < 24 → s.pmu.powered.getLsbD e = true → s.wanted.getLsbD e = true) →
      (s.drained d.val = false → d.val ≠ dFab → exec (.domainPowerDown d) s = .next s) ∧
      (s.drained d.val = true →
        (d.val ≠ dCtrl → ∃ t, exec (.domainPowerDown d) s = .next t ∧
          t.pmu.powered = s.pmu.powered &&& ~~~ b ∧ t.pmu.clamped = s.pmu.clamped ||| b ∧ t.up d.val = false ∧ changed t ∧
          (d.val ≠ dFab → ∀ k, k < 45 → (poolHome k).1 = d.val → t.pool k = Pool.reset) ∧
          (d.val = dFab → t.contact = Contact.reset ∧ (s.dmc.state = .run → t.dmc.state = .selfRefresh))) ∧
        (d.val = dCtrl → ∃ t, exec (.domainPowerDown d) s = .next t ∧ t.pmu.powered = 1 ∧ t.up dCtrl = false ∧
          t.dk.running = false ∧ t.dmc.mem = [] ∧ t.nvm.bytes = s.nvm.bytes))) ∧
    (s.up dUa = true → s.up dUb = true → (s.ucie[(1 : Fin 2)]).configured = false →
      (∀ heard : Bool, s.now < s.pmu.uaActiveAt + ubWindow → exec (.ubConfigWindowExpire heard) s = .next s) ∧
      (s.pmu.uaActiveAt + ubWindow ≤ s.now → ∃ t, exec (.ubConfigWindowExpire true) s = .next t ∧ t = { s with ucie := t.ucie } ∧
        t.ucie[(0 : Fin 2)] = s.ucie[(0 : Fin 2)] ∧ t.ucie[(1 : Fin 2)] = { s.ucie[(1 : Fin 2)] with configured := true }) ∧
      (s.pmu.uaActiveAt + ubWindow ≤ s.now → ∃ t, exec (.ubConfigWindowExpire false) s = .next t ∧ t.pmu.ubOff = true ∧ t.up dUb = false ∧
        changed t ∧ (t.ucie[(1 : Fin 2)]).link = .down ∧ t.ucie[(0 : Fin 2)] = s.ucie[(0 : Fin 2)]))

/-- The main supplies: AON power good starts the supplies from rail 0; each rail follows the power good of the one before by 100 us; with the
last one good the PLLs lock; a power good that is late by 10 ms or lost for 4 cycles is recorded in PMU.BOOT, counts among the failed attempts
while step 4 runs, and lowers the rails in descending order, each after the power good of the one above has fallen or 10 ms; step 4 starts
again 100 ms later, at most three times, and a trip's VDDA likewise. -/
def Obligations.SuppliesRiseFallAndRetry : Prop :=
  (∀ (s : State) (n : Nat), (s.pmu.boot ≠ .aonInit → exec (.aonPowerGood n) s = .next s) ∧
    (s.pmu.boot = .aonInit → s.pmu.powered.getLsbD 0 = true → ∃ t, exec (.aonPowerGood n) s = .next t ∧ t.pmu.boot = .supplies ∧
      (t.pmu.fuseFail = true ↔ 3 ≤ n) ∧ t.pmu.bootErr = (if 3 ≤ n then 1 else 0) ∧ t = { s with pmu := t.pmu } ∧
      (s.rf idPmuBoot 1 0 < 3 → t.pmu.pwrEn.getLsbD 0 = true) ∧ (s.rf idPmuBoot 1 0 = 3 → t.pmu.pwrEn = s.pmu.pwrEn))) ∧
  (∀ (s : State) (i : Fin 6), (s.pmu.pwrPg.getLsbD i.val = true → exec (.pwrPgRise i) s = .next s) ∧
    (s.pmu.pwrPg.getLsbD i.val = false → ∃ t, exec (.pwrPgRise i) s = .next t ∧ t = { s with pmu := t.pmu } ∧
      t.pmu.pwrPg = s.pmu.pwrPg ||| BitVec.ofNat 6 (2 ^ i.val) ∧ t.pmu.pwrRose.getLsbD i.val = true ∧ t.pmu.pwrPgAt[i] = s.now ∧
      t.pmu.boot = s.pmu.boot ∧ t.pmu.pwrEn = s.pmu.pwrEn ∧
      (i.val < 5 → s.raising = true → s.pmu.xtal = true →
        (∀ k, k < 5 → s.pmu.pwrEn.getLsbD k = true ∧ (k ≠ i.val → s.pmu.pwrPg.getLsbD k = true)) →
        t.locked 1 = true ∧ t.locked 2 = true ∧ t.locked 5 = true))) ∧
  (∀ (s : State) (i : Fin 6), s.pending = [] → s.raising = true → 0 < i.val → i.val < 5 → s.pmu.pwrEn.getLsbD i.val = false →
    (∀ k, k < i.val → s.pmu.pwrEn.getLsbD k = true) → s.pmu.pwrPg.getLsbD (i.val - 1) = true →
    let due := max (s.pmu.pwrPgAt[i - 1]) (s.pmu.pwrEnAt[i - 1]) + 25000
    ∃ t, step s = .next t ∧ (due ≤ s.now + 1 → t.pmu.pwrEn = s.pmu.pwrEn ||| BitVec.ofNat 6 (2 ^ i.val) ∧ t.pmu.pwrEnAt[i] = s.now + 1) ∧
      (s.now + 1 < due → t.pmu.pwrEn = s.pmu.pwrEn)) ∧
  (∀ (s : State) (i : Fin 6), ∃ t, exec (.pwrPgFall i) s = .next t ∧ t.pmu.pwrPg = s.pmu.pwrPg &&& ~~~ BitVec.ofNat 6 (2 ^ i.val) ∧
    (s.pmu.lowering = none → t.pmu.pwrEn = s.pmu.pwrEn) ∧ (i.val = 0 → t.thm.restartSince = none) ∧
    (∀ t0 j, s.pmu.lowering = some (i.val, t0) → j + 1 = i.val → s.pmu.pwrEn.getLsbD j = true → s.pmu.pwrPg.getLsbD j = true →
      (∀ k, j < k → k < 6 → s.pmu.pwrEn.getLsbD k = false) →
      (0 < j → s.pmu.pwrEn.getLsbD (j - 1) = true → t.pmu.pwrEn = s.pmu.pwrEn &&& ~~~ BitVec.ofNat 6 (2 ^ j) ∧
        t.pmu.lowering = some (j, s.now)) ∧
      (j = 0 → t.pmu.pwrEn = 0 ∧ t.pmu.lowering = none ∧ (s.pmu.fall = .supply → t.pmu.fall = .none ∧ t.pmu.boot = .supplies ∧
        t.pmu.retryAt = if s.rf idPmuBoot 1 0 < 3 then some (s.now + 25000000) else none)))) ∧
  (∀ (s : State) (i : Fin 6) (j t0 : Nat), s.pending = [] → s.pmu.lowering = some (i.val, t0) → t0 + 2500000 ≤ s.now + 1 →
    s.pmu.pwrOffAt[i] = t0 → 0 < j → j + 1 = i.val → s.pmu.pwrEn.getLsbD j = true → s.pmu.pwrPg.getLsbD j = true →
    s.pmu.pwrEn.getLsbD (j - 1) = true → (∀ k, j < k → k < 6 → s.pmu.pwrEn.getLsbD k = false) →
    ∃ t, step s = .next t ∧ t.pmu.pwrEn = s.pmu.pwrEn &&& ~~~ BitVec.ofNat 6 (2 ^ j) ∧ t.pmu.lowering = some (j, s.now + 1)) ∧
  (∀ (s : State) (i : Fin 6), s.pmu.pwrEn.getLsbD i.val = true → s.pmu.pwrPg.getLsbD i.val = false →
    s.pmu.lowering = none → s.pmu.fall = .none → s.canonical = true →
    let lost := s.pmu.pwrRose.getLsbD i.val
    let limit := s.pmu.pwrEnAt[i] + (if lost then 40 else 2500000)
    (s.now < limit → exec (.supplyFail i) s = .next s) ∧
    (limit ≤ s.now → ∃ t, exec (.supplyFail i) s = .next t ∧ t.rf idPmuBoot 31 31 = 1 ∧ t.rf idPmuBoot 9 8 = (if lost then 2 else 1) ∧
      t.rf idPmuBoot 7 4 = i.val ∧
      t.rf idPmuBoot 1 0 = (if s.dk.running ∨ s.pmu.tripped then s.rf idPmuBoot 1 0 else min 3 (s.rf idPmuBoot 1 0 + 1)) ∧
      (s.dk.running = false → s.pmu.powered = 1 → (∀ k, k < 6 → s.pmu.pwrEn.getLsbD k = true → k = i.val) →
        (∀ k, i.val < k → k < 6 → s.pmu.pwrPg.getLsbD k = false) → t.pmu.pwrEn = 0 ∧ t.pmu.boot = .supplies ∧
        t.pmu.retryAt = if t.rf idPmuBoot 1 0 < 3 then some (s.now + 25000000) else none) ∧
      (s.dk.running = true → s.panel.st = .on → t.panel.st = .safeSeq ∧ t.pmu.pwrEn = s.pmu.pwrEn ∧ t.pmu.fall = .supply))) ∧
  ∀ s : State, (s.pmu.retryAt = none → exec .supplyRetry s = .next s) ∧
    ∀ t0, s.pmu.retryAt = some t0 → (s.now < t0 → exec .supplyRetry s = .next s) ∧
      (t0 ≤ s.now → s.pmu.vaux = true → ∃ t, exec .supplyRetry s = .next t ∧ t.pmu.retryAt = none ∧ t = { s with pmu := t.pmu } ∧
        (s.pmu.tripped = true → t.pmu.pwrEn = s.pmu.pwrEn ||| 1 ∧ t.pmu.boot = s.pmu.boot) ∧
        (s.pmu.tripped = false → t.pmu.boot = .supplies ∧ (s.rf idPmuBoot 1 0 < 3 → t.pmu.pwrEn.getLsbD 0 = true)))

/-- Clocks: a lost lock clears CLK.LOCK and sets CLK.LOSS, and without XTAL every PLL fed from it counts as lost; a relock within an attempt
counts; PLL_CTRL's lets what waited for its clock through, PLL_TIME's stretches the next tick, and PLL_DMC's is followed by the short training,
whose failure leaves the device FAILED; a failed attempt counts; behind the last one no relock follows, a port is down, and the loss of a PLL
that is no link's is unrecoverable; XTAL's return restarts a device that such a loss took down. -/
def Obligations.ClockLossRelocksOrRestarts : Prop :=
  (∀ (s : State) (p : Fin 17), s.canonical = true →
    (s.locked p.val = false → p ≠ 0 → exec (.pllLossOfLock p) s = .next s) ∧
    (s.locked p.val = true → p ≠ 0 → ∃ t, exec (.pllLossOfLock p) s = .next t ∧ t.locked p.val = false ∧
      (∀ r, r ≠ p.val → t.locked r = s.locked r) ∧ t.reg idClkLoss = s.reg idClkLoss ||| BitVec.ofNat 32 (2 ^ p.val) ∧
      t.pmu.lossAt[p] = s.now ∧ t.pmu.tries[p] = 0 ∧ t.pmu.powered = s.pmu.powered ∧
      (p.val < 6 ∨ 10 ≤ p.val → t.dmc = s.dmc) ∧
      (∀ q : Fin 4, p.val = 6 + q.val ∨ p.val = 10 + q.val → (s.ports[q]).st = .up → (t.ports[q]).st = .retrain) ∧
      (∀ m : Fin 2, p.val = 15 + m.val → (s.ucie[m]).link = .up → (t.ucie[m]).link = .down)) ∧
    (p = 0 → s.pmu.xtal = true → ∃ t, exec (.pllLossOfLock p) s = .next t ∧ t.pmu.xtal = false ∧
      (∀ r, r < 15 → t.locked r = false ∧ (s.locked r = true → bit (t.reg idClkLoss) r = true)) ∧
      ∀ r, 15 ≤ r → t.locked r = s.locked r)) ∧
  (∀ (s : State) (p : Fin 17) (fails : BitVec 64), s.canonical = true →
    let most := if p.val = 5 then 1 else 3
    let limit := if p.val = 5 then 7500 else 25000
    (p = 0 ∨ s.locked p.val = true ∨ most ≤ s.pmu.tries[p] ∨ (p.val < 10 ∧ s.pmu.lossAt[p] + (s.pmu.tries[p] + 1) * limit < s.now) →
      exec (.pllRelock p fails) s = .next s) ∧
    (p ≠ 0 → s.locked p.val = false → s.pllOn p.val = true → s.pmu.xtal = true ∨ 15 ≤ p.val → s.pmu.fall = .none →
      s.pmu.tries[p] < most → 10 ≤ p.val ∨ s.now ≤ s.pmu.lossAt[p] + (s.pmu.tries[p] + 1) * limit →
      ∃ t, exec (.pllRelock p fails) s = .next t ∧ t.locked p.val = true ∧ (∀ r, r ≠ p.val → t.locked r = s.locked r) ∧
        (p = 1 → s.up dCtrl = true → t.evu.kept = []) ∧
        (p = 5 → s.dmc.state = .run → fails = 0 → t.dmc.state = .run ∧ t.pmu.boot = s.pmu.boot) ∧
        (p = 5 → s.dmc.state = .run → fails ≠ 0 → t.dmc.state = .failed ∧ t.pmu.boot = .failed ∧
          (s.up dCtrl = true → s.locked 1 = true → s.up dDmc = true → t.evStatus 192 = true)) ∧
        t.ctr idRelocks = (s.ctr idRelocks + 1) % 2 ^ 64 ∧ t.pmu.tries[p] = 0 ∧ t.reg idClkLoss = s.reg idClkLoss ∧
        (p.val ≠ 2 → t.tick = s.tick) ∧ (p.val = 2 → s.run = true → s.tick.last ≠ none → t.tick = { s.tick with stretched := true } ∧
          (s.up dCtrl = true → s.locked 1 = true → s.up dTime = true → t.evStatus 513 = true)))) ∧
  (∀ (s : State) (p : Fin 17), p ≠ 0 → s.locked p.val = false → s.pllOn p.val = true → s.canonical = true →
    let n := s.pmu.tries[p]
    let most := if p.val = 5 then 1 else 3
    let limit := if 10 ≤ p.val then 0 else if p.val = 5 then 7500 else 25000
    (s.now < s.pmu.lossAt[p] + (n + 1) * limit → exec (.relockTimeout p) s = .next s) ∧
    (n < most → s.pmu.lossAt[p] + (n + 1) * limit ≤ s.now → ∃ t, exec (.relockTimeout p) s = .next t ∧ t.pmu.tries[p] = n + 1 ∧
      (n + 1 < most ∨ 14 ≤ p.val → t = { s with pmu := { s.pmu with tries := s.pmu.tries.set p (n + 1) } }) ∧
      (∀ q : Fin 4, n + 1 = most → p.val = 10 + q.val → (t.ports[q]).st = .down ∧
        (s.up dCtrl = true → s.locked 1 = true → s.up dPl = true → t.evStatus (448 + q.val) = true)) ∧
      (n + 1 = most → p.val < 10 → s.pmu.fall = .none → s.pmu.tripped = false →
        (s.panel.st = .off → s.pmu.powered ≠ 1 → t.pmu.fall = .clock ∧ t.pmu.trans = none) ∧
        (s.panel.st = .on → s.panel.en ≠ 0 → t.pmu.fall = .clock ∧ t.pmu.trans = none ∧
          t.panel.st = .safeSeq ∧ t.panel.strobesHeld = s.panel.strobesHeld ∧ t.panel.blSent = s.panel.blSent)))) ∧
  ∀ s : State, (s.pmu.xtal = true → exec .xtalPresent s = .next s) ∧
    (s.pmu.xtal = false → ∃ t, exec .xtalPresent s = .next t ∧ t.pmu.xtal = true ∧ t.locked 0 = true ∧
      (s.pmu.fall = .clock → s.pmu.powered = 1 → t.pmu.boot = .supplies ∧ t.pmu.fall = .none ∧
        (s.rf idPmuBoot 1 0 < 3 → t.pmu.pwrEn.getLsbD 0 = true)) ∧
      (s.pmu.fall ≠ .clock → s.pmu.boot = .supplies → s.suppliesGood = true → t.locked 1 = true ∧ t.locked 2 = true ∧ t.locked 5 = true) ∧
      (s.pmu.fall = .none → s.pmu.boot ≠ .supplies → t = { s with pmu := { s.pmu with xtal := true, lock := s.pmu.lock ||| 1 } }))

/-- Start-up: GO closes the window; an image that fails a check reopens it with ERR and ATTEMPTS, one that passes has its magic, length,
signature and SVN and starts the training, once PLL_DMC is locked, after which every byte reads 0; the firmware starts behind the NVM's writes in
STANDBY with PROFILE NONE and E2, counts in counter 0 after a cold reset only, and sets the FW bits of the sources that it handles (which: log
entry 155); a warm restart keeps the hardware and the interim responses that wait, and answers each command taken ABORTED in the order
taken; FW_UPDATE loads a verified image, whose restart begins when its DONE is written into the ring. -/
def Obligations.FirmwareLoadsStartsAndRestarts : Prop :=
  (∀ (s : State) (len : Nat), (s.pmu.window = false → exec (.bootGo len) s = .next s) ∧ (s.pmu.window = true → exec (.bootGo len) s = .next
    { s with pmu := { s.pmu with window := false, boot := .verify }, dk := { s.dk with imageLen := len % 2 ^ 24 } })) ∧
  (∀ (s : State) (get : Nat → Nat → List Byte) (len : Nat), s.imgErr get len = 0 → leNat (get 0 4) = 0x57464849 ∧
    len = 0x400 + leNat (get 0xC 4) ∧ leNat (get 6 1) ≤ 1 ∧ Config.revoked.getLsbD (leNat (get 6 1)) = false ∧ s.svnMin ≤ leNat (get 8 2) ∧
    Config.ecdsaVerify (get 0x20 96) (get 0x80 96) (Config.sha384 (get 0 0x80 ++ get 0x400 (leNat (get 0xC 4)))) = true) ∧
  (∀ (s : State) (mask : BitVec 64), s.pmu.boot = .verify → s.up dCtrl = true → s.locked 1 = true →
    let r := s.imgErr s.imgBytes s.dk.imageLen
    (s.dk.running = false → s.locked 5 = false → exec (.fwImageVerified mask) s = .next s) ∧
    (r ≠ 0 → s.dk.running = true ∨ s.locked 5 = true → exec (.fwImageVerified mask) s = .next { s with pmu := { s.pmu with
      boot := .waitFw, window := true, bootErr := r, attempts := min 255 (s.pmu.attempts + 1) } }) ∧
    (r = 0 → s.dk.running = true → exec (.fwImageVerified mask) s = .next { s with pmu := { s.pmu with boot := .dramTrain } }) ∧
    (r = 0 → s.dk.running = false → s.locked 5 = true → s.up dDmc = true →
      (mask = 0 → ∃ t, exec (.fwImageVerified mask) s = .next t ∧ t.pmu = { s.pmu with boot := .dramTrain } ∧ t.dmc.state = .run ∧
        (∀ a, t.dramByte a = 0) ∧ ∀ p : Fin 8, (t.plates[p]).inForce = false ∧ (t.plates[p]).back = .closed) ∧
      (mask ≠ 0 → s.canonical = true → ∃ t, exec (.fwImageVerified mask) s = .next t ∧ t.pmu = { s.pmu with boot := .failed, bootErr := 0x20 } ∧
        t.dmc.state = .failed ∧ t.evStatus 192 = true))) ∧
  (∀ s : State, s.pmu.boot = .dramTrain → s.up dCtrl = true → s.locked 1 = true → s.dk.restarting = none → s.dk.running = false →
    s.dmc.state = .run → s.canonical = true →
    (s.nvm.jobs ≠ [] → exec .fwStart s = .next s) ∧
    (s.nvm.jobs = [] → ∃ t, exec .fwStart s = .next t ∧ t.dk.running = true ∧ t.pmu.boot = .fwRunning ∧
      t.pmu.mode = .standby ∧ t.dmc.state = .selfRefresh ∧ t.cal.profile = .none ∧ t.evStatus 2 = true ∧
      t.cntVal 0 = max (s.ctrStored 0).1 (s.cntVal 0) + (if s.pmu.cold then 1 else 0) ∧ t.pmu.cold = false ∧ t.nvm.tripDue = false ∧
      (∀ n, n < 576 → (severity? n).isSome = true → Config.fwHandles n = true → t.rf (idEvCfg n) 7 7 = 1) ∧
      t.dk.icsSet = true ∧ t.nvm.bytes = s.nvm.bytes)) ∧
  (∀ s : State, (s.dk.restarting = none ∨ s.nvm.jobs ≠ [] → exec .warmRestart s = .next s) ∧
    ∀ cause, s.dk.restarting = some cause → s.up dCtrl = true → s.locked 1 = true → s.pmu.boot = .fwRunning → s.nvm.jobs = [] →
      (s.imgErr s.imgBytes s.dk.imageLen ≠ 0 → exec .warmRestart s = .next
        { s with pmu := { s.pmu with boot := .waitFw, window := true, bootErr := 0x14 } }) ∧
      (s.imgErr s.imgBytes s.dk.imageLen = 0 → ∃ t, exec .warmRestart s = .next t ∧ t.dk.restarting = none ∧ t.dk.taken = [] ∧
        t.dk.started = [] ∧ t.dk.restarts = s.dk.restarts + 1 ∧ t.pmu.mode = s.pmu.mode ∧ t.expo.pend = s.expo.pend ∧ t.easels = s.easels ∧
        t.dmc = s.dmc ∧ t.tick = s.tick ∧ t.regs.staged = [] ∧ (s.canonical = true → t.evStatus 35 = true) ∧
        (∀ c ∈ s.dk.taken, let d := idxSub (s.tray c.tray).cmdHead c.index
          1 ≤ d → d ≤ 256 → ∃ r ∈ (t.tray c.tray).held, r.tag = c.tag ∧ r.opcode = c.opcode ∧ r.status = 4 ∧ r.final = true) ∧
        ∀ k : Fin 8, (∀ r ∈ (s.tray k).held, r.final = false → r ∈ (t.tray k).held) ∧
          (∀ r ∈ (t.tray k).held, r.final = true → r.status = 4 ∧ r.reason = 0x010C ∧ r.payload = List.replicate 24 0) ∧
          ((t.tray k).held.filter Resp.final).Pairwise fun a b => idxSub (s.tray k).cmdHead b.index ≤ idxSub (s.tray k).cmdHead a.index)) ∧
  (∀ (s : State) (c : Cmd), s.mayStart c 0x0006 = true →
    let a := c.arg 0 8
    let n := c.arg 8 4
    let get (off k : Nat) : List Byte := s.dramRead (a + off) k
    let svn := leNat (get 8 2)
    (hostRange a n = false → ∃ t, exec (.fwUpdate c) s = .next t ∧ Answered s t c 2 0x010A []) ∧
    (hostRange a n = true → s.room .firmware a n = false → exec (.fwUpdate c) s = .next s) ∧
    (hostRange a n = true → s.room .firmware a n = true → s.imgErr get n ≠ 0 → ∃ t u, exec (.fwUpdate c) s = .next t ∧ DramEffect s u ∧
      Answered u t c 2 (0x0E00 + s.imgErr get n) []) ∧
    (hostRange a n = true → s.room .firmware a n = true → s.imgErr get n = 0 → ∃ t u v, exec (.fwUpdate c) s = .next t ∧ DramEffect s u ∧
      v = { u with dk := v.dk } ∧ Answered v t c 0 0 [] ∧ v.dk = { s.dk with svnRaised := v.dk.svnRaised, image := v.dk.image, imageLen := n } ∧
      (∀ i, i < n → mapGet ring0 t.dk.image i = s.dramByte (a + i)) ∧ (∀ x, t.dramByte x = s.dramByte x) ∧
      ((c.arg 0xC 4).testBit 0 = true → svn ≤ 64 → t.svnMin = svn) ∧ ((c.arg 0xC 4).testBit 0 = false → t.svnMin = s.svnMin) ∧
      (s.svnMin ≤ 64 → t.svnMin ≤ 64))) ∧
  (∀ (s : State) (y : Fin 8) (r : Resp) (rest : List Resp), s.fw = true → (s.tray y).held = r :: rest → r.opcode = 0x0006 → r.status = 0 →
    idxSub (s.tray y).respTail (s.tray y).respHead < 256 → ∃ t, exec (.responseWrite y) s = .next t ∧ t.dk.restarting = some 0 ∧
      (t.tray y).held = rest) ∧
  ∀ s : State, (s.dk.restarting = none → s.dk.running = true → exec .fwStart s = .next s) ∧
    (s.pmu.boot ≠ .dramTrain → exec .fwStart s = .next s)

/-- DOMAIN_RESET and the end of SLOW commands: the codes that R537 allows begin, the others are refused; LINK resets its module's registers and
pools and ends once the module is UP, DATA ends once the panel is OFF and its work is done, with no exposure in force; PPI_LOAD waits for
the stack, ends refused with the first failing check or FAILED with PROFILE INVALID, or writes its record, with which it is done; YTC_LOAD
stores its blocks or is refused with E324; DRAM_SCRUB reports what it corrected and found; PTP_CONFIG's settings apply; a read's results that
waited for the stack are written. -/
def Obligations.SlowCommandsEndWhenTheirWorkIsDone : Prop :=
  (∀ (s : State) (c : Cmd), s.mayStart c 0x0007 = true →
    (c.arg 0 1 ≠ 2 → c.arg 0 1 ≠ 3 → c.arg 0 1 ≠ 4 → ∃ t, exec (.domainReset c) s = .next t ∧ Answered s t c 2 0x0D01 []) ∧
    (c.arg 0 1 = 3 → (s.ucie[(1 : Fin 2)]).configured = false → ∃ t, exec (.domainReset c) s = .next t ∧ Answered s t c 2 0x0D01 []) ∧
    (c.arg 0 1 = 4 → s.pmu.mode ≠ .service → ∃ t, exec (.domainReset c) s = .next t ∧ Answered s t c 2 0x0109 []) ∧
    (∀ m : Fin 2, c.arg 0 1 = 2 + m.val → (m = 0 ∨ (s.ucie[m]).configured = true) → ∃ t, exec (.domainReset c) s = .next t ∧
      (t.ucie[m]).link = .train ∧ (t.ucie[m]).tags = [] ∧
      (t.ucie[m]).waiting = ((s.ucie[m].waiting).filter fun x => s.ucie[m].link == .down || !istIsRead x).map (fun x => (x.1, false)) ∧
      (s.canonical = true → ∀ id, 0x0800 + 32 * m.val ≤ id → id < 0x0820 + 32 * m.val → t.reg id = resetWord id ∧ t.ctr id = 0) ∧
      (∀ k ∈ linkPools m, t.pool k = Pool.reset) ∧
      t.dk.started = s.dk.started ++ [c] ∧ t.dmc = s.dmc ∧ t.plates = s.plates ∧ ∀ z : Fin 2, z ≠ m → t.ucie[z] = s.ucie[z]) ∧
    (c.arg 0 1 = 4 → s.pmu.mode = .service → ∃ t, exec (.domainReset c) s = .next t ∧ t.contact.accepting = false ∧
      (s.panel.st = .on → t.panel.st = .safeSeq) ∧ t.pmu = s.pmu)) ∧
  ∀ (s : State) (c : Cmd) (r : SlowResult),
    let ended (t : State) (status reason : Nat) (payload : List Byte) : Prop := (t.tray c.tray).held = (s.tray c.tray).held ++
      [⟨s.now, c.tag, c.opcode, status, true, reason, padTo 24 payload, c.index⟩] ∧ t.dk.started = s.dk.started.erase c
    ((s.fw = false ∨ s.waits c = false) → exec (.slowCommandDone c r) s = .next s) ∧
    (s.fw = true → s.waits c = true → c.opcode = 0x0007 →
      (∀ m : Fin 2, c.arg 0 1 = 2 + m.val → ((s.ucie[m]).link ≠ .up → exec (.slowCommandDone c r) s = .next s) ∧
        ((s.ucie[m]).link = .up → ∃ t, exec (.slowCommandDone c r) s = .next t ∧ Answered s t c 0 0 [])) ∧
      (c.arg 0 1 = 4 → s.panel.st = .off → s.dataIdle = true → (∀ e ∈ s.expo.pend, e.cmd ≠ c) →
        ∃ t, exec (.slowCommandDone c r) s = .next t ∧
        t.expo.pend = [] ∧ (∀ p : Fin 8, (t.plates[p]).inForce = false ∧ (t.plates[p]).back = .closed) ∧ t.contact = Contact.reset ∧
        (∀ k, 24 ≤ k → k < 43 → t.pool k = Pool.reset) ∧
        (∀ q : Fin 4, (t.easels[q]).pfsValid = false) ∧ t.dk.started.count c + 1 = s.dk.started.count c) ∧
      (c.arg 0 1 = 4 → s.panel.st ≠ .off ∨ s.dataIdle = false → exec (.slowCommandDone c r) s = .next s)) ∧
    (s.fw = true → s.waits c = true → c.opcode = 0x0401 →
      let base := c.arg 0 8
      let n := c.arg 8 4
      let reason := s.ppiCheck base (s.dramRead base n) ((c.arg 0xC 1).testBit 0)
      let excess (u : State) : State := { u with cal := { u.cal with loading := false } }
      (s.ppiWriting c = true → exec (.slowCommandDone c r) s = .next s) ∧
      (s.ppiWriting c = false →
        (hostRange base n = false → ∃ t, exec (.slowCommandDone c r) s = .next t ∧ Answered (excess s) t c 2 0x0404 []) ∧
        (hostRange base n = true → s.ppiFree base n = false → exec (.slowCommandDone c r) s = .next s) ∧
        (hostRange base n = true → s.ppiFree base n = true →
          (reason ≠ 0 → reason ≠ 0x0407 → ∃ t v, exec (.slowCommandDone c r) s = .next t ∧ DramEffect s v ∧ Answered (excess v) t c 2 reason []) ∧
          (reason = 0x0407 → s.canonical = true → ∃ t v w, exec (.slowCommandDone c r) s = .next t ∧ DramEffect s v ∧
            EventEffect (excess v) w ∧ w.evStatus 557 = true ∧ Answered w t c 2 reason []) ∧
          (reason = 0 → r.writeFailed = true → ∃ t, exec (.slowCommandDone c r) s = .next t ∧ t.cal.profile = .invalid ∧
            t.cal.loading = false ∧ t.dk.started = s.dk.started.erase c) ∧
          (reason = 0 → r.writeFailed = false → s.pmu.tripped = false → ∃ t, exec (.slowCommandDone c r) s = .next t ∧ t.rayMap.loaded = true ∧
            (∀ q : Fin 4, (t.easels[q]).pfsValid = false) ∧
            (s.rf idProtect 1 0 ≠ 3 → t.ppiWriting c = true ∧ t.dk.started = s.dk.started) ∧
            (s.rf idProtect 1 0 = 3 → t.cal.profile = .valid ∧ t.cal.loading = false ∧ ended t 0 0 [])))) ) ∧
    (s.fw = true → s.waits c = true → c.opcode = 0x0304 → s.canonical = true →
      let a := c.arg 0 8
      let n := c.arg 8 4
      let v := s.access .fixer a n
      let no := c.arg 0xD 1
      let p : Fin 8 := Fin.ofNat 8 (no % 8)
      let i := (s.plate p).backIx
      let stored (t : State) (pl : Plane) (l : List (Nat × List Byte × List Byte)) : Prop := ended t 0 0 (leBytes 4 l.length) ∧
        l.length = pl.blocks ∧ (s.dmc.poison = [] → s.dmc.upset = [] → pl.addr + 512 * pl.blocks ≤ pl.ent →
          (∀ k x, l[k]? = some x → t.readPlane pl k = .bytes x.2.2)) ∧
        ∀ x, (x < pl.addr ∨ pl.addr + 512 * pl.blocks ≤ x) → (x < pl.ent ∨ pl.ent + 2 * pl.blocks ≤ x) → t.dramByte x = s.dramByte x
      let refused (t : State) (e : Nat × Nat) : Prop := ended t 2 e.1 (leBytes 4 e.2) ∧ t.evStatus 324 = true ∧
        ∀ x, t.dramByte x = s.dramByte x
      (s.fabRuns = false ∨ s.room .fixer a n = false → exec (.slowCommandDone c r) s = .next s) ∧
      (s.fabRuns = true → s.room .fixer a n = true →
        (c.arg 0xC 1 = 0 → (s.back p).plane (no / 8) = none → ∃ t, exec (.slowCommandDone c r) s = .next t ∧ refused t (0x0303, 2 ^ 32 - 1)) ∧
        (∀ pl, c.arg 0xC 1 = 0 → (s.back p).plane (no / 8) = some pl →
          (v.planeFree pl = false → exec (.slowCommandDone c r) s = .next s) ∧
          (v.planeFree pl = true → ∃ t, exec (.slowCommandDone c r) s = .next t ∧ (t.buf p i).credits = (s.buf p i).credits - 1 ∧
            (∀ e, v.imgCheck ⟨a, n⟩ pl = .inl e → refused t e) ∧ ∀ l, v.imgCheck ⟨a, n⟩ pl = .inr l → stored t pl l)) ∧
        (c.arg 0xC 1 ≠ 0 → let q := no % 4
          let set := no / 4 % 2
          let pl := s.dodgePlane q set (no / 8 % 8)
          (v.planeFree pl = false → exec (.slowCommandDone c r) s = .next s) ∧
          (v.planeFree pl = true → ∃ t, exec (.slowCommandDone c r) s = .next t ∧ t.loads.dodge = s.loads.dodge.erase (q, set) ∧
            (∀ e, v.imgCheck ⟨a, n⟩ pl = .inl e → refused t e) ∧ ∀ l, v.imgCheck ⟨a, n⟩ pl = .inr l → stored t pl l)))) ∧
    (s.fw = true → s.waits c = true → c.opcode = 0x0702 → s.canonical = true →
      let a := c.arg 0 8
      let n := c.arg 8 8
      let u := s.scrubArise c r
      let found := u.scrubFound a n
      (s.room .host a n = false → exec (.slowCommandDone c r) s = .next s) ∧
      (s.room .host a n = true → ∃ t, exec (.slowCommandDone c r) s = .next t ∧ ended t 0 0 (leBytes 8 found.1 ++ leBytes 8 found.2) ∧
        found.1 + found.2 = (u.badBeats a n).length ∧ (∀ x, t.dramByte x = s.dramByte x) ∧
        (∀ b, beatIn a n b = true → mapFind t.dmc.upset b = none ∧ (mapFind u.dmc.upset b = some true → t.poisoned b = true)) ∧
        (found.2 ≠ 0 → t.evStatus 198 = true))) ∧
    (s.fw = true → s.waits c = true → c.opcode = 0x0803 → s.canonical = true → ∃ t, exec (.slowCommandDone c r) s = .next t ∧
      t.reg idPtpCfg = BitVec.ofNat 32 (c.arg 0 4) ∧ t.reg idPtpLat = BitVec.ofNat 32 (c.arg 0x1C 4) ∧
      (∀ id, id ≠ idPtpCfg → id ≠ idPtpLat → t.reg id = s.reg id) ∧ t.time.ptp.settings = c.payload.take 32 ∧ t.time.ptp.port = 0 ∧
      t.time.ptp.inbox = [] ∧ ended t 0 0 []) ∧
    (s.fw = true → s.waits c = true → c.opcode = 0x0A01 ∨ c.opcode = 0x0A04 →
      let a := c.arg 8 8
      ((∀ e ∈ s.nvm.results, e.1 ≠ c) → exec (.slowCommandDone c r) s = .next s) ∧
      ∀ bytes, s.nvm.results = [(c, bytes)] → (s.resultRoom a bytes.length = false → exec (.slowCommandDone c r) s = .next s) ∧
        (s.resultRoom a bytes.length = true → ∃ t, exec (.slowCommandDone c r) s = .next t ∧ t.nvm.results = [] ∧ ended t 0 0 [] ∧
          (a ≠ 0 → t.dramRead a bytes.length = bytes) ∧ ∀ x, a = 0 ∨ x < a ∨ a + bytes.length ≤ x → t.dramByte x = s.dramByte x))

/-- Resets: State.reset has the values the spec gives, with every addressed memory canonical; a cold reset returns all but the VAUX latches
and the NVM, where a page write in progress leaves its page TORN with each group new or 0xFF and every other page as it was; a brown-out
records its mode, and a loss of VAUX clears that record. -/
def Obligations.ResetsReturnToTheirValues : Prop :=
  (State.reset.canonical = true ∧ State.reset.pmu.powered = 1 ∧ State.reset.pmu.clamped = 0xFFFFFE ∧ State.reset.pmu.pwrEn = 0 ∧
    State.reset.pmu.boot = .aonInit ∧ State.reset.panel.st = .off ∧ State.reset.panel.en = 0 ∧ State.reset.cal.profile = .none ∧
    State.reset.pending = [] ∧ State.reset.dk.running = false ∧ (∀ p : Fin 8, (State.reset.plates[p]).back = .closed) ∧
    State.reset.reg idProtect = 1 ∧ State.reset.reg idRet = 0xFF000000 ∧ State.reset.reg idWakeCfg = 2 ∧
    (∀ a, State.reset.nvmState a = ⟨1, 0, 0, 0⟩) ∧ ∀ id, State.reset.reg id = resetWord id) ∧
  (∀ s : State, s.canonical = true → ∃ t, exec .coldReset s = .next t ∧ t.canonical = true ∧
    (∀ id, id ≠ idBor → id ≠ idPmuBoot → t.reg id = resetWord id) ∧ t.reg idBor = s.reg idBor ∧ t.reg idPmuBoot = s.reg idPmuBoot ∧
    (∀ id, t.ctr id = 0) ∧ t.pmu.powered = 1 ∧ t.pmu.clamped = 0xFFFFFE ∧ t.pmu.pwrEn = 0 ∧ t.pmu.boot = .aonInit ∧ t.pmu.cold = true ∧
    t.panel.st = .off ∧ t.panel.en = 0 ∧ t.dk.running = false ∧ t.dmc.mem = [] ∧ t.nvm.jobs = [] ∧ t.pending = s.pending ∧
    (s.nvm.jobs = [] → t.nvm.bytes = s.nvm.bytes ∧ t.nvm.pages = s.nvm.pages) ∧
    ∀ j rest, s.nvm.jobs = j :: rest → j.use.writes = true → j.bytes.length = 64 → (t.nvmState j.page).st = 2 ∧
      (∀ p, p ≠ j.page → t.nvmPage p = s.nvmPage p ∧ t.nvmState p = s.nvmState p) ∧
      ∀ g, g < 8 → ((t.nvmPage j.page).drop (8 * g)).take 8 = (j.bytes.drop (8 * g)).take 8 ∨
        ((t.nvmPage j.page).drop (8 * g)).take 8 = List.replicate 8 0xFF) ∧
  (∀ s : State, s.canonical = true → s.pmu.powered.getLsbD 0 = true → ∃ t, exec .brownout s = .next t ∧ t.pmu.powered = 0 ∧ t.pmu.pwrEn = 0 ∧
    t.panel.en = 0 ∧ t.panel.st = .off ∧ t.reg idBor = BitVec.ofNat 32 (2 ^ 31 + modeCode s.pmu.mode) ∧ t.reg idPmuBoot = s.reg idPmuBoot ∧
    (s.nvm.jobs = [] → t.nvm.bytes = s.nvm.bytes)) ∧
  (∀ s : State, s.pmu.powered.getLsbD 0 = false → exec .brownout s = .next s) ∧
  ∀ s : State, ∃ t, exec .vauxLoss s = .next t ∧ t.pmu.vaux = false ∧ t.pmu.powered = 0 ∧ t.pmu.pwrEn = 0 ∧ t.panel.en = 0 ∧
    (∀ id, t.reg id = resetWord id) ∧ (s.nvm.jobs = [] → t.nvm.bytes = s.nvm.bytes)
end

