-- ==== Sys2Proof/Laws/Maps.lean ====
section
/-!
SUPPORT. The sparse maps of Machine/Bits.lean: reading after setting, and the canonical form (keys strictly rising, no listed
default) that every operation keeps.
-/
namespace Sys2Proof.Machine

variable {α : Type}

/-! ### Reading after setting -/

theorem mapFind_mapPut_same (m : List (Nat × α)) (k : Nat) (v : α) : mapFind (mapPut m k v) k = some v := by
  induction m with
  | nil => simp [mapPut, mapFind]
  | cons e m ih =>
    obtain ⟨j, a⟩ := e
    by_cases h1 : k < j
    · simp [mapPut, mapFind, h1]
    · by_cases h2 : k = j
      · simp [mapPut, mapFind, h2]
      · have h3 : j ≠ k := fun h => h2 h.symm
        simp [mapPut, mapFind, h1, h2, h3, ih]

theorem mapFind_mapPut_ne (m : List (Nat × α)) {k i : Nat} (v : α) (h : i ≠ k) : mapFind (mapPut m k v) i = mapFind m i := by
  have h' : k ≠ i := fun e => h e.symm
  induction m with
  | nil => simp [mapPut, mapFind, h']
  | cons e m ih =>
    obtain ⟨j, a⟩ := e
    by_cases h1 : k < j
    · simp [mapPut, mapFind, h1, h']
    · by_cases h2 : k = j
      · subst h2; simp [mapPut, mapFind, h']
      · simp only [mapPut, mapFind, if_neg h1, if_neg h2, ih]

/-- No key of a sorted list lies at or below its bound. -/
theorem mapFind_below {m : List (Nat × α)} {b k : Nat} (h : mapSorted (some b) m = true) (hk : k ≤ b) : mapFind m k = none := by
  induction m generalizing b with
  | nil => rfl
  | cons e m ih =>
    obtain ⟨j, a⟩ := e
    simp only [mapSorted, Bool.and_eq_true, decide_eq_true_eq] at h
    have hj : j ≠ k := by omega
    simp [mapFind, hj, ih h.2 (by omega)]

theorem mapSorted_tail {m : List (Nat × α)} {lo : Option Nat} {e : Nat × α} (h : mapSorted lo (e :: m) = true) :
    mapSorted (some e.1) m = true := by
  obtain ⟨j, a⟩ := e
  simp only [mapSorted, Bool.and_eq_true] at h
  exact h.2

theorem mapFind_mapDel_same {m : List (Nat × α)} {lo : Option Nat} (h : mapSorted lo m = true) (k : Nat) :
    mapFind (mapDel m k) k = none := by
  induction m generalizing lo with
  | nil => rfl
  | cons e m ih =>
    have ht := mapSorted_tail h
    obtain ⟨j, a⟩ := e
    by_cases hj : j = k
    · subst hj; simpa [mapDel] using mapFind_below ht (Nat.le_refl _)
    · simp [mapDel, mapFind, hj, ih ht]

theorem mapFind_mapDel_ne (m : List (Nat × α)) {k i : Nat} (h : i ≠ k) : mapFind (mapDel m k) i = mapFind m i := by
  induction m with
  | nil => rfl
  | cons e m ih =>
    obtain ⟨j, a⟩ := e
    by_cases hj : j = k
    · subst hj
      have : j ≠ i := fun e => h e.symm
      simp [mapDel, mapFind, this]
    · simp only [mapDel, mapFind, if_neg hj, ih]

/-! ### Sortedness -/

/-- Is a key above an optional bound? -/
theorem mapSorted_mapPut {m : List (Nat × α)} {lo : Option Nat} {k : Nat} (v : α) (h : mapSorted lo m = true)
    (hk : ∀ b, lo = some b → b < k) : mapSorted lo (mapPut m k v) = true := by
  induction m generalizing lo with
  | nil => cases lo <;> simp_all [mapPut, mapSorted]
  | cons e m ih =>
    obtain ⟨j, a⟩ := e
    have ht := mapSorted_tail h
    by_cases h1 : k < j
    · cases lo <;> simp_all [mapPut, mapSorted]
    · by_cases h2 : k = j
      · cases lo <;> simp_all [mapPut, mapSorted]
      · have hp := ih (lo := some j) ht (by intro b hb; cases hb; omega)
        simp only [mapPut, if_neg h1, if_neg h2]
        cases lo <;> simp_all [mapSorted]

theorem mapSorted_weaken {m : List (Nat × α)} {a : Nat} {lo : Option Nat} (h : mapSorted (some a) m = true)
    (hl : ∀ b, lo = some b → b ≤ a) : mapSorted lo m = true := by
  cases m with
  | nil => rfl
  | cons e m =>
    obtain ⟨j, x⟩ := e
    cases lo with
    | none => simp_all [mapSorted]
    | some b =>
      have := hl b rfl
      simp only [mapSorted, Bool.and_eq_true, decide_eq_true_eq] at h ⊢
      exact ⟨by omega, h.2⟩

theorem mapSorted_mapDel {m : List (Nat × α)} {lo : Option Nat} (h : mapSorted lo m = true) (k : Nat) :
    mapSorted lo (mapDel m k) = true := by
  induction m generalizing lo with
  | nil => rfl
  | cons e m ih =>
    obtain ⟨j, a⟩ := e
    have ht := mapSorted_tail h
    by_cases hj : j = k
    · simp only [mapDel, hj, if_true]
      refine mapSorted_weaken ht ?_
      intro b hb
      subst hb
      simp only [mapSorted, Bool.and_eq_true, decide_eq_true_eq] at h
      exact Nat.le_of_lt h.1
    · have := ih ht
      cases lo <;> simp_all [mapDel, mapSorted]

theorem mapSorted_filter {m : List (Nat × α)} {lo : Option Nat} (h : mapSorted lo m = true) (p : Nat × α → Bool) :
    mapSorted lo (m.filter p) = true := by
  induction m generalizing lo with
  | nil => rfl
  | cons e m ih =>
    obtain ⟨j, a⟩ := e
    have ht := mapSorted_tail h
    by_cases hp : p (j, a) = true
    · have := ih ht
      cases lo <;> simp_all [mapSorted]
    · simp only [hp, List.filter_cons, Bool.false_eq_true, if_false]
      refine ih (mapSorted_weaken ht ?_)
      intro b hb
      subst hb
      simp only [mapSorted, Bool.and_eq_true, decide_eq_true_eq] at h
      exact Nat.le_of_lt h.1

/-! ### Members -/

theorem mem_mapPut {m : List (Nat × α)} {k : Nat} {v : α} {e : Nat × α} (h : e ∈ mapPut m k v) : e = (k, v) ∨ e ∈ m := by
  induction m with
  | nil => simp_all [mapPut]
  | cons x m ih =>
    obtain ⟨j, a⟩ := x
    simp only [mapPut] at h
    split at h
    · simpa using h
    · split at h
      · simp at h
        rcases h with h | h
        · exact .inl h
        · exact .inr (by simp [h])
      · simp at h
        rcases h with h | h
        · exact .inr (by simp [h])
        · rcases ih h with h | h
          · exact .inl h
          · exact .inr (by simp [h])

theorem mem_mapDel {m : List (Nat × α)} {k : Nat} {e : Nat × α} (h : e ∈ mapDel m k) : e ∈ m := by
  induction m with
  | nil => simp_all [mapDel]
  | cons x m ih =>
    obtain ⟨j, a⟩ := x
    simp only [mapDel] at h
    split at h
    · exact List.mem_cons_of_mem _ h
    · simp at h
      rcases h with h | h
      · simp [h]
      · exact List.mem_cons_of_mem _ (ih h)

/-! ### The canonical form -/

section wf
variable [DecidableEq α] {d : Nat → α}

@[simp] theorem mapWf_nil : mapWf d [] = true := rfl

theorem mapWf_iff {m : List (Nat × α)} :
    mapWf d m = true ↔ mapSorted none m = true ∧ ∀ e ∈ m, e.2 ≠ d e.1 := by
  simp [mapWf, List.all_eq_true]

/-- Setting a key keeps the canonical form. -/
theorem mapWf_mapSet {m : List (Nat × α)} (h : mapWf d m = true) (k : Nat) (v : α) : mapWf d (mapSet d m k v) = true := by
  rw [mapWf_iff] at h ⊢
  unfold mapSet
  split
  · exact ⟨mapSorted_mapDel h.1 k, fun e he => h.2 e (mem_mapDel he)⟩
  · rename_i hv
    refine ⟨mapSorted_mapPut v h.1 (by simp), fun e he => ?_⟩
    rcases mem_mapPut he with rfl | he
    · exact hv
    · exact h.2 e he

/-- Dropping entries keeps the canonical form. -/
theorem mapWf_filter {m : List (Nat × α)} (h : mapWf d m = true) (p : Nat × α → Bool) : mapWf d (m.filter p) = true := by
  rw [mapWf_iff] at h ⊢
  exact ⟨mapSorted_filter h.1 p, fun e he => h.2 e (List.mem_filter.mp he).1⟩

/-- A set key reads as it was set, in a canonical map. -/
theorem mapGet_mapSet_same {m : List (Nat × α)} (h : mapWf d m = true) (k : Nat) (v : α) : mapGet d (mapSet d m k v) k = v := by
  rw [mapWf_iff] at h
  by_cases hv : v = d k
  · simp only [mapSet, mapGet, if_pos hv, mapFind_mapDel_same h.1]
    exact hv.symm
  · simp only [mapSet, mapGet, if_neg hv, mapFind_mapPut_same]

/-- Every other key reads as before. -/
theorem mapGet_mapSet_ne (m : List (Nat × α)) {k i : Nat} (v : α) (h : i ≠ k) : mapGet d (mapSet d m k v) i = mapGet d m i := by
  by_cases hv : v = d k
  · simp only [mapSet, mapGet, if_pos hv, mapFind_mapDel_ne m h]
  · simp only [mapSet, mapGet, if_neg hv, mapFind_mapPut_ne m v h]

end wf

@[simp] theorem mapGet_nil (d : Nat → α) (k : Nat) : mapGet d [] k = d k := rfl

end Sys2Proof.Machine
end

