-- ==== Sys2Proof/Laws/State.lean ====
section
/-!
SUPPORT. What each named update of Machine/Ops.lean leaves alone: one lemma per field of State, so that no proof unfolds a record
update.
-/
namespace Sys2Proof.Machine

/-! ### State.setReg -/

@[simp] theorem State.setReg_pending (s : State) (id : Nat) (v : Word) : (s.setReg id v).pending = s.pending := rfl
@[simp] theorem State.setReg_now (s : State) (id : Nat) (v : Word) : (s.setReg id v).now = s.now := rfl
@[simp] theorem State.setReg_fresh (s : State) (id : Nat) (v : Word) : (s.setReg id v).fresh = s.fresh := rfl
@[simp] theorem State.setReg_evu (s : State) (id : Nat) (v : Word) : (s.setReg id v).evu = s.evu := rfl
@[simp] theorem State.setReg_pools (s : State) (id : Nat) (v : Word) : (s.setReg id v).pools = s.pools := rfl
@[simp] theorem State.setReg_time (s : State) (id : Nat) (v : Word) : (s.setReg id v).time = s.time := rfl
@[simp] theorem State.setReg_tick (s : State) (id : Nat) (v : Word) : (s.setReg id v).tick = s.tick := rfl
@[simp] theorem State.setReg_dk (s : State) (id : Nat) (v : Word) : (s.setReg id v).dk = s.dk := rfl
@[simp] theorem State.setReg_trays (s : State) (id : Nat) (v : Word) : (s.setReg id v).trays = s.trays := rfl
@[simp] theorem State.setReg_ucie (s : State) (id : Nat) (v : Word) : (s.setReg id v).ucie = s.ucie := rfl
@[simp] theorem State.setReg_nvm (s : State) (id : Nat) (v : Word) : (s.setReg id v).nvm = s.nvm := rfl
@[simp] theorem State.setReg_dmc (s : State) (id : Nat) (v : Word) : (s.setReg id v).dmc = s.dmc := rfl
@[simp] theorem State.setReg_pmu (s : State) (id : Nat) (v : Word) : (s.setReg id v).pmu = s.pmu := rfl
@[simp] theorem State.setReg_plates (s : State) (id : Nat) (v : Word) : (s.setReg id v).plates = s.plates := rfl
@[simp] theorem State.setReg_fixers (s : State) (id : Nat) (v : Word) : (s.setReg id v).fixers = s.fixers := rfl
@[simp] theorem State.setReg_expo (s : State) (id : Nat) (v : Word) : (s.setReg id v).expo = s.expo := rfl
@[simp] theorem State.setReg_rayMap (s : State) (id : Nat) (v : Word) : (s.setReg id v).rayMap = s.rayMap := rfl
@[simp] theorem State.setReg_rfc (s : State) (id : Nat) (v : Word) : (s.setReg id v).rfc = s.rfc := rfl
@[simp] theorem State.setReg_corr (s : State) (id : Nat) (v : Word) : (s.setReg id v).corr = s.corr := rfl
@[simp] theorem State.setReg_easels (s : State) (id : Nat) (v : Word) : (s.setReg id v).easels = s.easels := rfl
@[simp] theorem State.setReg_ports (s : State) (id : Nat) (v : Word) : (s.setReg id v).ports = s.ports := rfl
@[simp] theorem State.setReg_panel (s : State) (id : Nat) (v : Word) : (s.setReg id v).panel = s.panel := rfl
@[simp] theorem State.setReg_contact (s : State) (id : Nat) (v : Word) : (s.setReg id v).contact = s.contact := rfl
@[simp] theorem State.setReg_thm (s : State) (id : Nat) (v : Word) : (s.setReg id v).thm = s.thm := rfl
@[simp] theorem State.setReg_cal (s : State) (id : Nat) (v : Word) : (s.setReg id v).cal = s.cal := rfl
@[simp] theorem State.setReg_cnt (s : State) (id : Nat) (v : Word) : (s.setReg id v).cnt = s.cnt := rfl
@[simp] theorem State.setReg_loads (s : State) (id : Nat) (v : Word) : (s.setReg id v).loads = s.loads := rfl
@[simp] theorem State.setReg_caches (s : State) (id : Nat) (v : Word) : (s.setReg id v).caches = s.caches := rfl

/-! ### State.setRf -/

@[simp] theorem State.setRf_pending (s : State) (id hi lo v : Nat) : (s.setRf id hi lo v).pending = s.pending := rfl
@[simp] theorem State.setRf_now (s : State) (id hi lo v : Nat) : (s.setRf id hi lo v).now = s.now := rfl
@[simp] theorem State.setRf_fresh (s : State) (id hi lo v : Nat) : (s.setRf id hi lo v).fresh = s.fresh := rfl
@[simp] theorem State.setRf_evu (s : State) (id hi lo v : Nat) : (s.setRf id hi lo v).evu = s.evu := rfl
@[simp] theorem State.setRf_pools (s : State) (id hi lo v : Nat) : (s.setRf id hi lo v).pools = s.pools := rfl
@[simp] theorem State.setRf_time (s : State) (id hi lo v : Nat) : (s.setRf id hi lo v).time = s.time := rfl
@[simp] theorem State.setRf_tick (s : State) (id hi lo v : Nat) : (s.setRf id hi lo v).tick = s.tick := rfl
@[simp] theorem State.setRf_dk (s : State) (id hi lo v : Nat) : (s.setRf id hi lo v).dk = s.dk := rfl
@[simp] theorem State.setRf_trays (s : State) (id hi lo v : Nat) : (s.setRf id hi lo v).trays = s.trays := rfl
@[simp] theorem State.setRf_ucie (s : State) (id hi lo v : Nat) : (s.setRf id hi lo v).ucie = s.ucie := rfl
@[simp] theorem State.setRf_nvm (s : State) (id hi lo v : Nat) : (s.setRf id hi lo v).nvm = s.nvm := rfl
@[simp] theorem State.setRf_dmc (s : State) (id hi lo v : Nat) : (s.setRf id hi lo v).dmc = s.dmc := rfl
@[simp] theorem State.setRf_pmu (s : State) (id hi lo v : Nat) : (s.setRf id hi lo v).pmu = s.pmu := rfl
@[simp] theorem State.setRf_plates (s : State) (id hi lo v : Nat) : (s.setRf id hi lo v).plates = s.plates := rfl
@[simp] theorem State.setRf_fixers (s : State) (id hi lo v : Nat) : (s.setRf id hi lo v).fixers = s.fixers := rfl
@[simp] theorem State.setRf_expo (s : State) (id hi lo v : Nat) : (s.setRf id hi lo v).expo = s.expo := rfl
@[simp] theorem State.setRf_rayMap (s : State) (id hi lo v : Nat) : (s.setRf id hi lo v).rayMap = s.rayMap := rfl
@[simp] theorem State.setRf_rfc (s : State) (id hi lo v : Nat) : (s.setRf id hi lo v).rfc = s.rfc := rfl
@[simp] theorem State.setRf_corr (s : State) (id hi lo v : Nat) : (s.setRf id hi lo v).corr = s.corr := rfl
@[simp] theorem State.setRf_easels (s : State) (id hi lo v : Nat) : (s.setRf id hi lo v).easels = s.easels := rfl
@[simp] theorem State.setRf_ports (s : State) (id hi lo v : Nat) : (s.setRf id hi lo v).ports = s.ports := rfl
@[simp] theorem State.setRf_panel (s : State) (id hi lo v : Nat) : (s.setRf id hi lo v).panel = s.panel := rfl
@[simp] theorem State.setRf_contact (s : State) (id hi lo v : Nat) : (s.setRf id hi lo v).contact = s.contact := rfl
@[simp] theorem State.setRf_thm (s : State) (id hi lo v : Nat) : (s.setRf id hi lo v).thm = s.thm := rfl
@[simp] theorem State.setRf_cal (s : State) (id hi lo v : Nat) : (s.setRf id hi lo v).cal = s.cal := rfl
@[simp] theorem State.setRf_cnt (s : State) (id hi lo v : Nat) : (s.setRf id hi lo v).cnt = s.cnt := rfl
@[simp] theorem State.setRf_loads (s : State) (id hi lo v : Nat) : (s.setRf id hi lo v).loads = s.loads := rfl
@[simp] theorem State.setRf_caches (s : State) (id hi lo v : Nat) : (s.setRf id hi lo v).caches = s.caches := rfl

/-! ### State.addCtr -/

@[simp] theorem State.addCtr_pending (s : State) (id n : Nat) : (s.addCtr id n).pending = s.pending := rfl
@[simp] theorem State.addCtr_now (s : State) (id n : Nat) : (s.addCtr id n).now = s.now := rfl
@[simp] theorem State.addCtr_fresh (s : State) (id n : Nat) : (s.addCtr id n).fresh = s.fresh := rfl
@[simp] theorem State.addCtr_evu (s : State) (id n : Nat) : (s.addCtr id n).evu = s.evu := rfl
@[simp] theorem State.addCtr_pools (s : State) (id n : Nat) : (s.addCtr id n).pools = s.pools := rfl
@[simp] theorem State.addCtr_time (s : State) (id n : Nat) : (s.addCtr id n).time = s.time := rfl
@[simp] theorem State.addCtr_tick (s : State) (id n : Nat) : (s.addCtr id n).tick = s.tick := rfl
@[simp] theorem State.addCtr_dk (s : State) (id n : Nat) : (s.addCtr id n).dk = s.dk := rfl
@[simp] theorem State.addCtr_trays (s : State) (id n : Nat) : (s.addCtr id n).trays = s.trays := rfl
@[simp] theorem State.addCtr_ucie (s : State) (id n : Nat) : (s.addCtr id n).ucie = s.ucie := rfl
@[simp] theorem State.addCtr_nvm (s : State) (id n : Nat) : (s.addCtr id n).nvm = s.nvm := rfl
@[simp] theorem State.addCtr_dmc (s : State) (id n : Nat) : (s.addCtr id n).dmc = s.dmc := rfl
@[simp] theorem State.addCtr_pmu (s : State) (id n : Nat) : (s.addCtr id n).pmu = s.pmu := rfl
@[simp] theorem State.addCtr_plates (s : State) (id n : Nat) : (s.addCtr id n).plates = s.plates := rfl
@[simp] theorem State.addCtr_fixers (s : State) (id n : Nat) : (s.addCtr id n).fixers = s.fixers := rfl
@[simp] theorem State.addCtr_expo (s : State) (id n : Nat) : (s.addCtr id n).expo = s.expo := rfl
@[simp] theorem State.addCtr_rayMap (s : State) (id n : Nat) : (s.addCtr id n).rayMap = s.rayMap := rfl
@[simp] theorem State.addCtr_rfc (s : State) (id n : Nat) : (s.addCtr id n).rfc = s.rfc := rfl
@[simp] theorem State.addCtr_corr (s : State) (id n : Nat) : (s.addCtr id n).corr = s.corr := rfl
@[simp] theorem State.addCtr_easels (s : State) (id n : Nat) : (s.addCtr id n).easels = s.easels := rfl
@[simp] theorem State.addCtr_ports (s : State) (id n : Nat) : (s.addCtr id n).ports = s.ports := rfl
@[simp] theorem State.addCtr_panel (s : State) (id n : Nat) : (s.addCtr id n).panel = s.panel := rfl
@[simp] theorem State.addCtr_contact (s : State) (id n : Nat) : (s.addCtr id n).contact = s.contact := rfl
@[simp] theorem State.addCtr_thm (s : State) (id n : Nat) : (s.addCtr id n).thm = s.thm := rfl
@[simp] theorem State.addCtr_cal (s : State) (id n : Nat) : (s.addCtr id n).cal = s.cal := rfl
@[simp] theorem State.addCtr_cnt (s : State) (id n : Nat) : (s.addCtr id n).cnt = s.cnt := rfl
@[simp] theorem State.addCtr_loads (s : State) (id n : Nat) : (s.addCtr id n).loads = s.loads := rfl
@[simp] theorem State.addCtr_caches (s : State) (id n : Nat) : (s.addCtr id n).caches = s.caches := rfl

/-! ### State.countLive -/

@[simp] theorem State.countLive_pending (s : State) (id n : Nat) (isMax : Bool) : (s.countLive id n isMax).pending = s.pending := rfl
@[simp] theorem State.countLive_now (s : State) (id n : Nat) (isMax : Bool) : (s.countLive id n isMax).now = s.now := rfl
@[simp] theorem State.countLive_fresh (s : State) (id n : Nat) (isMax : Bool) : (s.countLive id n isMax).fresh = s.fresh := rfl
@[simp] theorem State.countLive_evu (s : State) (id n : Nat) (isMax : Bool) : (s.countLive id n isMax).evu = s.evu := rfl
@[simp] theorem State.countLive_pools (s : State) (id n : Nat) (isMax : Bool) : (s.countLive id n isMax).pools = s.pools := rfl
@[simp] theorem State.countLive_time (s : State) (id n : Nat) (isMax : Bool) : (s.countLive id n isMax).time = s.time := rfl
@[simp] theorem State.countLive_tick (s : State) (id n : Nat) (isMax : Bool) : (s.countLive id n isMax).tick = s.tick := rfl
@[simp] theorem State.countLive_dk (s : State) (id n : Nat) (isMax : Bool) : (s.countLive id n isMax).dk = s.dk := rfl
@[simp] theorem State.countLive_trays (s : State) (id n : Nat) (isMax : Bool) : (s.countLive id n isMax).trays = s.trays := rfl
@[simp] theorem State.countLive_ucie (s : State) (id n : Nat) (isMax : Bool) : (s.countLive id n isMax).ucie = s.ucie := rfl
@[simp] theorem State.countLive_nvm (s : State) (id n : Nat) (isMax : Bool) : (s.countLive id n isMax).nvm = s.nvm := rfl
@[simp] theorem State.countLive_dmc (s : State) (id n : Nat) (isMax : Bool) : (s.countLive id n isMax).dmc = s.dmc := rfl
@[simp] theorem State.countLive_pmu (s : State) (id n : Nat) (isMax : Bool) : (s.countLive id n isMax).pmu = s.pmu := rfl
@[simp] theorem State.countLive_plates (s : State) (id n : Nat) (isMax : Bool) : (s.countLive id n isMax).plates = s.plates := rfl
@[simp] theorem State.countLive_fixers (s : State) (id n : Nat) (isMax : Bool) : (s.countLive id n isMax).fixers = s.fixers := rfl
@[simp] theorem State.countLive_expo (s : State) (id n : Nat) (isMax : Bool) : (s.countLive id n isMax).expo = s.expo := rfl
@[simp] theorem State.countLive_rayMap (s : State) (id n : Nat) (isMax : Bool) : (s.countLive id n isMax).rayMap = s.rayMap := rfl
@[simp] theorem State.countLive_rfc (s : State) (id n : Nat) (isMax : Bool) : (s.countLive id n isMax).rfc = s.rfc := rfl
@[simp] theorem State.countLive_corr (s : State) (id n : Nat) (isMax : Bool) : (s.countLive id n isMax).corr = s.corr := rfl
@[simp] theorem State.countLive_easels (s : State) (id n : Nat) (isMax : Bool) : (s.countLive id n isMax).easels = s.easels := rfl
@[simp] theorem State.countLive_ports (s : State) (id n : Nat) (isMax : Bool) : (s.countLive id n isMax).ports = s.ports := rfl
@[simp] theorem State.countLive_panel (s : State) (id n : Nat) (isMax : Bool) : (s.countLive id n isMax).panel = s.panel := rfl
@[simp] theorem State.countLive_contact (s : State) (id n : Nat) (isMax : Bool) : (s.countLive id n isMax).contact = s.contact := rfl
@[simp] theorem State.countLive_thm (s : State) (id n : Nat) (isMax : Bool) : (s.countLive id n isMax).thm = s.thm := rfl
@[simp] theorem State.countLive_cal (s : State) (id n : Nat) (isMax : Bool) : (s.countLive id n isMax).cal = s.cal := rfl
@[simp] theorem State.countLive_cnt (s : State) (id n : Nat) (isMax : Bool) : (s.countLive id n isMax).cnt = s.cnt := rfl
@[simp] theorem State.countLive_loads (s : State) (id n : Nat) (isMax : Bool) : (s.countLive id n isMax).loads = s.loads := rfl
@[simp] theorem State.countLive_caches (s : State) (id n : Nat) (isMax : Bool) : (s.countLive id n isMax).caches = s.caches := rfl

/-! ### State.addLive -/

@[simp] theorem State.addLive_pending (s : State) (id n : Nat) : (s.addLive id n).pending = s.pending := rfl
@[simp] theorem State.addLive_now (s : State) (id n : Nat) : (s.addLive id n).now = s.now := rfl
@[simp] theorem State.addLive_fresh (s : State) (id n : Nat) : (s.addLive id n).fresh = s.fresh := rfl
@[simp] theorem State.addLive_evu (s : State) (id n : Nat) : (s.addLive id n).evu = s.evu := rfl
@[simp] theorem State.addLive_pools (s : State) (id n : Nat) : (s.addLive id n).pools = s.pools := rfl
@[simp] theorem State.addLive_time (s : State) (id n : Nat) : (s.addLive id n).time = s.time := rfl
@[simp] theorem State.addLive_tick (s : State) (id n : Nat) : (s.addLive id n).tick = s.tick := rfl
@[simp] theorem State.addLive_dk (s : State) (id n : Nat) : (s.addLive id n).dk = s.dk := rfl
@[simp] theorem State.addLive_trays (s : State) (id n : Nat) : (s.addLive id n).trays = s.trays := rfl
@[simp] theorem State.addLive_ucie (s : State) (id n : Nat) : (s.addLive id n).ucie = s.ucie := rfl
@[simp] theorem State.addLive_nvm (s : State) (id n : Nat) : (s.addLive id n).nvm = s.nvm := rfl
@[simp] theorem State.addLive_dmc (s : State) (id n : Nat) : (s.addLive id n).dmc = s.dmc := rfl
@[simp] theorem State.addLive_pmu (s : State) (id n : Nat) : (s.addLive id n).pmu = s.pmu := rfl
@[simp] theorem State.addLive_plates (s : State) (id n : Nat) : (s.addLive id n).plates = s.plates := rfl
@[simp] theorem State.addLive_fixers (s : State) (id n : Nat) : (s.addLive id n).fixers = s.fixers := rfl
@[simp] theorem State.addLive_expo (s : State) (id n : Nat) : (s.addLive id n).expo = s.expo := rfl
@[simp] theorem State.addLive_rayMap (s : State) (id n : Nat) : (s.addLive id n).rayMap = s.rayMap := rfl
@[simp] theorem State.addLive_rfc (s : State) (id n : Nat) : (s.addLive id n).rfc = s.rfc := rfl
@[simp] theorem State.addLive_corr (s : State) (id n : Nat) : (s.addLive id n).corr = s.corr := rfl
@[simp] theorem State.addLive_easels (s : State) (id n : Nat) : (s.addLive id n).easels = s.easels := rfl
@[simp] theorem State.addLive_ports (s : State) (id n : Nat) : (s.addLive id n).ports = s.ports := rfl
@[simp] theorem State.addLive_panel (s : State) (id n : Nat) : (s.addLive id n).panel = s.panel := rfl
@[simp] theorem State.addLive_contact (s : State) (id n : Nat) : (s.addLive id n).contact = s.contact := rfl
@[simp] theorem State.addLive_thm (s : State) (id n : Nat) : (s.addLive id n).thm = s.thm := rfl
@[simp] theorem State.addLive_cal (s : State) (id n : Nat) : (s.addLive id n).cal = s.cal := rfl
@[simp] theorem State.addLive_cnt (s : State) (id n : Nat) : (s.addLive id n).cnt = s.cnt := rfl
@[simp] theorem State.addLive_loads (s : State) (id n : Nat) : (s.addLive id n).loads = s.loads := rfl
@[simp] theorem State.addLive_caches (s : State) (id n : Nat) : (s.addLive id n).caches = s.caches := rfl

/-! ### State.maxLive -/

@[simp] theorem State.maxLive_pending (s : State) (id n : Nat) : (s.maxLive id n).pending = s.pending := rfl
@[simp] theorem State.maxLive_now (s : State) (id n : Nat) : (s.maxLive id n).now = s.now := rfl
@[simp] theorem State.maxLive_fresh (s : State) (id n : Nat) : (s.maxLive id n).fresh = s.fresh := rfl
@[simp] theorem State.maxLive_evu (s : State) (id n : Nat) : (s.maxLive id n).evu = s.evu := rfl
@[simp] theorem State.maxLive_pools (s : State) (id n : Nat) : (s.maxLive id n).pools = s.pools := rfl
@[simp] theorem State.maxLive_time (s : State) (id n : Nat) : (s.maxLive id n).time = s.time := rfl
@[simp] theorem State.maxLive_tick (s : State) (id n : Nat) : (s.maxLive id n).tick = s.tick := rfl
@[simp] theorem State.maxLive_dk (s : State) (id n : Nat) : (s.maxLive id n).dk = s.dk := rfl
@[simp] theorem State.maxLive_trays (s : State) (id n : Nat) : (s.maxLive id n).trays = s.trays := rfl
@[simp] theorem State.maxLive_ucie (s : State) (id n : Nat) : (s.maxLive id n).ucie = s.ucie := rfl
@[simp] theorem State.maxLive_nvm (s : State) (id n : Nat) : (s.maxLive id n).nvm = s.nvm := rfl
@[simp] theorem State.maxLive_dmc (s : State) (id n : Nat) : (s.maxLive id n).dmc = s.dmc := rfl
@[simp] theorem State.maxLive_pmu (s : State) (id n : Nat) : (s.maxLive id n).pmu = s.pmu := rfl
@[simp] theorem State.maxLive_plates (s : State) (id n : Nat) : (s.maxLive id n).plates = s.plates := rfl
@[simp] theorem State.maxLive_fixers (s : State) (id n : Nat) : (s.maxLive id n).fixers = s.fixers := rfl
@[simp] theorem State.maxLive_expo (s : State) (id n : Nat) : (s.maxLive id n).expo = s.expo := rfl
@[simp] theorem State.maxLive_rayMap (s : State) (id n : Nat) : (s.maxLive id n).rayMap = s.rayMap := rfl
@[simp] theorem State.maxLive_rfc (s : State) (id n : Nat) : (s.maxLive id n).rfc = s.rfc := rfl
@[simp] theorem State.maxLive_corr (s : State) (id n : Nat) : (s.maxLive id n).corr = s.corr := rfl
@[simp] theorem State.maxLive_easels (s : State) (id n : Nat) : (s.maxLive id n).easels = s.easels := rfl
@[simp] theorem State.maxLive_ports (s : State) (id n : Nat) : (s.maxLive id n).ports = s.ports := rfl
@[simp] theorem State.maxLive_panel (s : State) (id n : Nat) : (s.maxLive id n).panel = s.panel := rfl
@[simp] theorem State.maxLive_contact (s : State) (id n : Nat) : (s.maxLive id n).contact = s.contact := rfl
@[simp] theorem State.maxLive_thm (s : State) (id n : Nat) : (s.maxLive id n).thm = s.thm := rfl
@[simp] theorem State.maxLive_cal (s : State) (id n : Nat) : (s.maxLive id n).cal = s.cal := rfl
@[simp] theorem State.maxLive_cnt (s : State) (id n : Nat) : (s.maxLive id n).cnt = s.cnt := rfl
@[simp] theorem State.maxLive_loads (s : State) (id n : Nat) : (s.maxLive id n).loads = s.loads := rfl
@[simp] theorem State.maxLive_caches (s : State) (id n : Nat) : (s.maxLive id n).caches = s.caches := rfl

/-! ### State.setSnap -/

@[simp] theorem State.setSnap_pending (s : State) (id n : Nat) : (s.setSnap id n).pending = s.pending := rfl
@[simp] theorem State.setSnap_now (s : State) (id n : Nat) : (s.setSnap id n).now = s.now := rfl
@[simp] theorem State.setSnap_fresh (s : State) (id n : Nat) : (s.setSnap id n).fresh = s.fresh := rfl
@[simp] theorem State.setSnap_evu (s : State) (id n : Nat) : (s.setSnap id n).evu = s.evu := rfl
@[simp] theorem State.setSnap_pools (s : State) (id n : Nat) : (s.setSnap id n).pools = s.pools := rfl
@[simp] theorem State.setSnap_time (s : State) (id n : Nat) : (s.setSnap id n).time = s.time := rfl
@[simp] theorem State.setSnap_tick (s : State) (id n : Nat) : (s.setSnap id n).tick = s.tick := rfl
@[simp] theorem State.setSnap_dk (s : State) (id n : Nat) : (s.setSnap id n).dk = s.dk := rfl
@[simp] theorem State.setSnap_trays (s : State) (id n : Nat) : (s.setSnap id n).trays = s.trays := rfl
@[simp] theorem State.setSnap_ucie (s : State) (id n : Nat) : (s.setSnap id n).ucie = s.ucie := rfl
@[simp] theorem State.setSnap_nvm (s : State) (id n : Nat) : (s.setSnap id n).nvm = s.nvm := rfl
@[simp] theorem State.setSnap_dmc (s : State) (id n : Nat) : (s.setSnap id n).dmc = s.dmc := rfl
@[simp] theorem State.setSnap_pmu (s : State) (id n : Nat) : (s.setSnap id n).pmu = s.pmu := rfl
@[simp] theorem State.setSnap_plates (s : State) (id n : Nat) : (s.setSnap id n).plates = s.plates := rfl
@[simp] theorem State.setSnap_fixers (s : State) (id n : Nat) : (s.setSnap id n).fixers = s.fixers := rfl
@[simp] theorem State.setSnap_expo (s : State) (id n : Nat) : (s.setSnap id n).expo = s.expo := rfl
@[simp] theorem State.setSnap_rayMap (s : State) (id n : Nat) : (s.setSnap id n).rayMap = s.rayMap := rfl
@[simp] theorem State.setSnap_rfc (s : State) (id n : Nat) : (s.setSnap id n).rfc = s.rfc := rfl
@[simp] theorem State.setSnap_corr (s : State) (id n : Nat) : (s.setSnap id n).corr = s.corr := rfl
@[simp] theorem State.setSnap_easels (s : State) (id n : Nat) : (s.setSnap id n).easels = s.easels := rfl
@[simp] theorem State.setSnap_ports (s : State) (id n : Nat) : (s.setSnap id n).ports = s.ports := rfl
@[simp] theorem State.setSnap_panel (s : State) (id n : Nat) : (s.setSnap id n).panel = s.panel := rfl
@[simp] theorem State.setSnap_contact (s : State) (id n : Nat) : (s.setSnap id n).contact = s.contact := rfl
@[simp] theorem State.setSnap_thm (s : State) (id n : Nat) : (s.setSnap id n).thm = s.thm := rfl
@[simp] theorem State.setSnap_cal (s : State) (id n : Nat) : (s.setSnap id n).cal = s.cal := rfl
@[simp] theorem State.setSnap_cnt (s : State) (id n : Nat) : (s.setSnap id n).cnt = s.cnt := rfl
@[simp] theorem State.setSnap_loads (s : State) (id n : Nat) : (s.setSnap id n).loads = s.loads := rfl
@[simp] theorem State.setSnap_caches (s : State) (id n : Nat) : (s.setSnap id n).caches = s.caches := rfl

/-! ### State.setInbox -/

@[simp] theorem State.setInbox_pending (s : State) (n : Nat) : (s.setInbox n).pending = s.pending := rfl
@[simp] theorem State.setInbox_now (s : State) (n : Nat) : (s.setInbox n).now = s.now := rfl
@[simp] theorem State.setInbox_fresh (s : State) (n : Nat) : (s.setInbox n).fresh = s.fresh := rfl
@[simp] theorem State.setInbox_regs (s : State) (n : Nat) : (s.setInbox n).regs = s.regs := rfl
@[simp] theorem State.setInbox_pools (s : State) (n : Nat) : (s.setInbox n).pools = s.pools := rfl
@[simp] theorem State.setInbox_time (s : State) (n : Nat) : (s.setInbox n).time = s.time := rfl
@[simp] theorem State.setInbox_tick (s : State) (n : Nat) : (s.setInbox n).tick = s.tick := rfl
@[simp] theorem State.setInbox_dk (s : State) (n : Nat) : (s.setInbox n).dk = s.dk := rfl
@[simp] theorem State.setInbox_trays (s : State) (n : Nat) : (s.setInbox n).trays = s.trays := rfl
@[simp] theorem State.setInbox_ucie (s : State) (n : Nat) : (s.setInbox n).ucie = s.ucie := rfl
@[simp] theorem State.setInbox_nvm (s : State) (n : Nat) : (s.setInbox n).nvm = s.nvm := rfl
@[simp] theorem State.setInbox_dmc (s : State) (n : Nat) : (s.setInbox n).dmc = s.dmc := rfl
@[simp] theorem State.setInbox_pmu (s : State) (n : Nat) : (s.setInbox n).pmu = s.pmu := rfl
@[simp] theorem State.setInbox_plates (s : State) (n : Nat) : (s.setInbox n).plates = s.plates := rfl
@[simp] theorem State.setInbox_fixers (s : State) (n : Nat) : (s.setInbox n).fixers = s.fixers := rfl
@[simp] theorem State.setInbox_expo (s : State) (n : Nat) : (s.setInbox n).expo = s.expo := rfl
@[simp] theorem State.setInbox_rayMap (s : State) (n : Nat) : (s.setInbox n).rayMap = s.rayMap := rfl
@[simp] theorem State.setInbox_rfc (s : State) (n : Nat) : (s.setInbox n).rfc = s.rfc := rfl
@[simp] theorem State.setInbox_corr (s : State) (n : Nat) : (s.setInbox n).corr = s.corr := rfl
@[simp] theorem State.setInbox_easels (s : State) (n : Nat) : (s.setInbox n).easels = s.easels := rfl
@[simp] theorem State.setInbox_ports (s : State) (n : Nat) : (s.setInbox n).ports = s.ports := rfl
@[simp] theorem State.setInbox_panel (s : State) (n : Nat) : (s.setInbox n).panel = s.panel := rfl
@[simp] theorem State.setInbox_contact (s : State) (n : Nat) : (s.setInbox n).contact = s.contact := rfl
@[simp] theorem State.setInbox_thm (s : State) (n : Nat) : (s.setInbox n).thm = s.thm := rfl
@[simp] theorem State.setInbox_cal (s : State) (n : Nat) : (s.setInbox n).cal = s.cal := rfl
@[simp] theorem State.setInbox_cnt (s : State) (n : Nat) : (s.setInbox n).cnt = s.cnt := rfl
@[simp] theorem State.setInbox_loads (s : State) (n : Nat) : (s.setInbox n).loads = s.loads := rfl
@[simp] theorem State.setInbox_caches (s : State) (n : Nat) : (s.setInbox n).caches = s.caches := rfl

/-! ### State.setTray -/

@[simp] theorem State.setTray_pending (s : State) (t : Fin 8) (y : Tray) : (s.setTray t y).pending = s.pending := rfl
@[simp] theorem State.setTray_now (s : State) (t : Fin 8) (y : Tray) : (s.setTray t y).now = s.now := rfl
@[simp] theorem State.setTray_fresh (s : State) (t : Fin 8) (y : Tray) : (s.setTray t y).fresh = s.fresh := rfl
@[simp] theorem State.setTray_regs (s : State) (t : Fin 8) (y : Tray) : (s.setTray t y).regs = s.regs := rfl
@[simp] theorem State.setTray_evu (s : State) (t : Fin 8) (y : Tray) : (s.setTray t y).evu = s.evu := rfl
@[simp] theorem State.setTray_pools (s : State) (t : Fin 8) (y : Tray) : (s.setTray t y).pools = s.pools := rfl
@[simp] theorem State.setTray_time (s : State) (t : Fin 8) (y : Tray) : (s.setTray t y).time = s.time := rfl
@[simp] theorem State.setTray_tick (s : State) (t : Fin 8) (y : Tray) : (s.setTray t y).tick = s.tick := rfl
@[simp] theorem State.setTray_dk (s : State) (t : Fin 8) (y : Tray) : (s.setTray t y).dk = s.dk := rfl
@[simp] theorem State.setTray_ucie (s : State) (t : Fin 8) (y : Tray) : (s.setTray t y).ucie = s.ucie := rfl
@[simp] theorem State.setTray_nvm (s : State) (t : Fin 8) (y : Tray) : (s.setTray t y).nvm = s.nvm := rfl
@[simp] theorem State.setTray_dmc (s : State) (t : Fin 8) (y : Tray) : (s.setTray t y).dmc = s.dmc := rfl
@[simp] theorem State.setTray_pmu (s : State) (t : Fin 8) (y : Tray) : (s.setTray t y).pmu = s.pmu := rfl
@[simp] theorem State.setTray_plates (s : State) (t : Fin 8) (y : Tray) : (s.setTray t y).plates = s.plates := rfl
@[simp] theorem State.setTray_fixers (s : State) (t : Fin 8) (y : Tray) : (s.setTray t y).fixers = s.fixers := rfl
@[simp] theorem State.setTray_expo (s : State) (t : Fin 8) (y : Tray) : (s.setTray t y).expo = s.expo := rfl
@[simp] theorem State.setTray_rayMap (s : State) (t : Fin 8) (y : Tray) : (s.setTray t y).rayMap = s.rayMap := rfl
@[simp] theorem State.setTray_rfc (s : State) (t : Fin 8) (y : Tray) : (s.setTray t y).rfc = s.rfc := rfl
@[simp] theorem State.setTray_corr (s : State) (t : Fin 8) (y : Tray) : (s.setTray t y).corr = s.corr := rfl
@[simp] theorem State.setTray_easels (s : State) (t : Fin 8) (y : Tray) : (s.setTray t y).easels = s.easels := rfl
@[simp] theorem State.setTray_ports (s : State) (t : Fin 8) (y : Tray) : (s.setTray t y).ports = s.ports := rfl
@[simp] theorem State.setTray_panel (s : State) (t : Fin 8) (y : Tray) : (s.setTray t y).panel = s.panel := rfl
@[simp] theorem State.setTray_contact (s : State) (t : Fin 8) (y : Tray) : (s.setTray t y).contact = s.contact := rfl
@[simp] theorem State.setTray_thm (s : State) (t : Fin 8) (y : Tray) : (s.setTray t y).thm = s.thm := rfl
@[simp] theorem State.setTray_cal (s : State) (t : Fin 8) (y : Tray) : (s.setTray t y).cal = s.cal := rfl
@[simp] theorem State.setTray_cnt (s : State) (t : Fin 8) (y : Tray) : (s.setTray t y).cnt = s.cnt := rfl
@[simp] theorem State.setTray_loads (s : State) (t : Fin 8) (y : Tray) : (s.setTray t y).loads = s.loads := rfl
@[simp] theorem State.setTray_caches (s : State) (t : Fin 8) (y : Tray) : (s.setTray t y).caches = s.caches := rfl

/-! ### State.pushResp -/

@[simp] theorem State.pushResp_pending (s : State) (c : Cmd) (st : Nat) (fin : Bool) (r : Nat) (p : List Byte) : (s.pushResp c st fin r p).pending = s.pending := rfl
@[simp] theorem State.pushResp_now (s : State) (c : Cmd) (st : Nat) (fin : Bool) (r : Nat) (p : List Byte) : (s.pushResp c st fin r p).now = s.now := rfl
@[simp] theorem State.pushResp_fresh (s : State) (c : Cmd) (st : Nat) (fin : Bool) (r : Nat) (p : List Byte) : (s.pushResp c st fin r p).fresh = s.fresh := rfl
@[simp] theorem State.pushResp_regs (s : State) (c : Cmd) (st : Nat) (fin : Bool) (r : Nat) (p : List Byte) : (s.pushResp c st fin r p).regs = s.regs := rfl
@[simp] theorem State.pushResp_evu (s : State) (c : Cmd) (st : Nat) (fin : Bool) (r : Nat) (p : List Byte) : (s.pushResp c st fin r p).evu = s.evu := rfl
@[simp] theorem State.pushResp_pools (s : State) (c : Cmd) (st : Nat) (fin : Bool) (r : Nat) (p : List Byte) : (s.pushResp c st fin r p).pools = s.pools := rfl
@[simp] theorem State.pushResp_time (s : State) (c : Cmd) (st : Nat) (fin : Bool) (r : Nat) (p : List Byte) : (s.pushResp c st fin r p).time = s.time := rfl
@[simp] theorem State.pushResp_tick (s : State) (c : Cmd) (st : Nat) (fin : Bool) (r : Nat) (p : List Byte) : (s.pushResp c st fin r p).tick = s.tick := rfl
@[simp] theorem State.pushResp_dk (s : State) (c : Cmd) (st : Nat) (fin : Bool) (r : Nat) (p : List Byte) : (s.pushResp c st fin r p).dk = s.dk := rfl
@[simp] theorem State.pushResp_ucie (s : State) (c : Cmd) (st : Nat) (fin : Bool) (r : Nat) (p : List Byte) : (s.pushResp c st fin r p).ucie = s.ucie := rfl
@[simp] theorem State.pushResp_nvm (s : State) (c : Cmd) (st : Nat) (fin : Bool) (r : Nat) (p : List Byte) : (s.pushResp c st fin r p).nvm = s.nvm := rfl
@[simp] theorem State.pushResp_dmc (s : State) (c : Cmd) (st : Nat) (fin : Bool) (r : Nat) (p : List Byte) : (s.pushResp c st fin r p).dmc = s.dmc := rfl
@[simp] theorem State.pushResp_pmu (s : State) (c : Cmd) (st : Nat) (fin : Bool) (r : Nat) (p : List Byte) : (s.pushResp c st fin r p).pmu = s.pmu := rfl
@[simp] theorem State.pushResp_plates (s : State) (c : Cmd) (st : Nat) (fin : Bool) (r : Nat) (p : List Byte) : (s.pushResp c st fin r p).plates = s.plates := rfl
@[simp] theorem State.pushResp_fixers (s : State) (c : Cmd) (st : Nat) (fin : Bool) (r : Nat) (p : List Byte) : (s.pushResp c st fin r p).fixers = s.fixers := rfl
@[simp] theorem State.pushResp_expo (s : State) (c : Cmd) (st : Nat) (fin : Bool) (r : Nat) (p : List Byte) : (s.pushResp c st fin r p).expo = s.expo := rfl
@[simp] theorem State.pushResp_rayMap (s : State) (c : Cmd) (st : Nat) (fin : Bool) (r : Nat) (p : List Byte) : (s.pushResp c st fin r p).rayMap = s.rayMap := rfl
@[simp] theorem State.pushResp_rfc (s : State) (c : Cmd) (st : Nat) (fin : Bool) (r : Nat) (p : List Byte) : (s.pushResp c st fin r p).rfc = s.rfc := rfl
@[simp] theorem State.pushResp_corr (s : State) (c : Cmd) (st : Nat) (fin : Bool) (r : Nat) (p : List Byte) : (s.pushResp c st fin r p).corr = s.corr := rfl
@[simp] theorem State.pushResp_easels (s : State) (c : Cmd) (st : Nat) (fin : Bool) (r : Nat) (p : List Byte) : (s.pushResp c st fin r p).easels = s.easels := rfl
@[simp] theorem State.pushResp_ports (s : State) (c : Cmd) (st : Nat) (fin : Bool) (r : Nat) (p : List Byte) : (s.pushResp c st fin r p).ports = s.ports := rfl
@[simp] theorem State.pushResp_panel (s : State) (c : Cmd) (st : Nat) (fin : Bool) (r : Nat) (p : List Byte) : (s.pushResp c st fin r p).panel = s.panel := rfl
@[simp] theorem State.pushResp_contact (s : State) (c : Cmd) (st : Nat) (fin : Bool) (r : Nat) (p : List Byte) : (s.pushResp c st fin r p).contact = s.contact := rfl
@[simp] theorem State.pushResp_thm (s : State) (c : Cmd) (st : Nat) (fin : Bool) (r : Nat) (p : List Byte) : (s.pushResp c st fin r p).thm = s.thm := rfl
@[simp] theorem State.pushResp_cal (s : State) (c : Cmd) (st : Nat) (fin : Bool) (r : Nat) (p : List Byte) : (s.pushResp c st fin r p).cal = s.cal := rfl
@[simp] theorem State.pushResp_cnt (s : State) (c : Cmd) (st : Nat) (fin : Bool) (r : Nat) (p : List Byte) : (s.pushResp c st fin r p).cnt = s.cnt := rfl
@[simp] theorem State.pushResp_loads (s : State) (c : Cmd) (st : Nat) (fin : Bool) (r : Nat) (p : List Byte) : (s.pushResp c st fin r p).loads = s.loads := rfl
@[simp] theorem State.pushResp_caches (s : State) (c : Cmd) (st : Nat) (fin : Bool) (r : Nat) (p : List Byte) : (s.pushResp c st fin r p).caches = s.caches := rfl

/-! ### State.startCmd -/

@[simp] theorem State.startCmd_pending (s : State) (c : Cmd) : (s.startCmd c).pending = s.pending := rfl
@[simp] theorem State.startCmd_now (s : State) (c : Cmd) : (s.startCmd c).now = s.now := rfl
@[simp] theorem State.startCmd_fresh (s : State) (c : Cmd) : (s.startCmd c).fresh = s.fresh := rfl
@[simp] theorem State.startCmd_regs (s : State) (c : Cmd) : (s.startCmd c).regs = s.regs := rfl
@[simp] theorem State.startCmd_evu (s : State) (c : Cmd) : (s.startCmd c).evu = s.evu := rfl
@[simp] theorem State.startCmd_pools (s : State) (c : Cmd) : (s.startCmd c).pools = s.pools := rfl
@[simp] theorem State.startCmd_time (s : State) (c : Cmd) : (s.startCmd c).time = s.time := rfl
@[simp] theorem State.startCmd_tick (s : State) (c : Cmd) : (s.startCmd c).tick = s.tick := rfl
@[simp] theorem State.startCmd_trays (s : State) (c : Cmd) : (s.startCmd c).trays = s.trays := rfl
@[simp] theorem State.startCmd_ucie (s : State) (c : Cmd) : (s.startCmd c).ucie = s.ucie := rfl
@[simp] theorem State.startCmd_nvm (s : State) (c : Cmd) : (s.startCmd c).nvm = s.nvm := rfl
@[simp] theorem State.startCmd_dmc (s : State) (c : Cmd) : (s.startCmd c).dmc = s.dmc := rfl
@[simp] theorem State.startCmd_pmu (s : State) (c : Cmd) : (s.startCmd c).pmu = s.pmu := rfl
@[simp] theorem State.startCmd_plates (s : State) (c : Cmd) : (s.startCmd c).plates = s.plates := rfl
@[simp] theorem State.startCmd_fixers (s : State) (c : Cmd) : (s.startCmd c).fixers = s.fixers := rfl
@[simp] theorem State.startCmd_expo (s : State) (c : Cmd) : (s.startCmd c).expo = s.expo := rfl
@[simp] theorem State.startCmd_rayMap (s : State) (c : Cmd) : (s.startCmd c).rayMap = s.rayMap := rfl
@[simp] theorem State.startCmd_rfc (s : State) (c : Cmd) : (s.startCmd c).rfc = s.rfc := rfl
@[simp] theorem State.startCmd_corr (s : State) (c : Cmd) : (s.startCmd c).corr = s.corr := rfl
@[simp] theorem State.startCmd_easels (s : State) (c : Cmd) : (s.startCmd c).easels = s.easels := rfl
@[simp] theorem State.startCmd_ports (s : State) (c : Cmd) : (s.startCmd c).ports = s.ports := rfl
@[simp] theorem State.startCmd_panel (s : State) (c : Cmd) : (s.startCmd c).panel = s.panel := rfl
@[simp] theorem State.startCmd_contact (s : State) (c : Cmd) : (s.startCmd c).contact = s.contact := rfl
@[simp] theorem State.startCmd_thm (s : State) (c : Cmd) : (s.startCmd c).thm = s.thm := rfl
@[simp] theorem State.startCmd_cal (s : State) (c : Cmd) : (s.startCmd c).cal = s.cal := rfl
@[simp] theorem State.startCmd_cnt (s : State) (c : Cmd) : (s.startCmd c).cnt = s.cnt := rfl
@[simp] theorem State.startCmd_loads (s : State) (c : Cmd) : (s.startCmd c).loads = s.loads := rfl
@[simp] theorem State.startCmd_caches (s : State) (c : Cmd) : (s.startCmd c).caches = s.caches := rfl

/-! ### State.answer -/

@[simp] theorem State.answer_pending (s : State) (c : Cmd) (st r : Nat) (p : List Byte) : (s.answer c st r p).pending = s.pending := rfl
@[simp] theorem State.answer_now (s : State) (c : Cmd) (st r : Nat) (p : List Byte) : (s.answer c st r p).now = s.now := rfl
@[simp] theorem State.answer_fresh (s : State) (c : Cmd) (st r : Nat) (p : List Byte) : (s.answer c st r p).fresh = s.fresh := rfl
@[simp] theorem State.answer_regs (s : State) (c : Cmd) (st r : Nat) (p : List Byte) : (s.answer c st r p).regs = s.regs := rfl
@[simp] theorem State.answer_evu (s : State) (c : Cmd) (st r : Nat) (p : List Byte) : (s.answer c st r p).evu = s.evu := rfl
@[simp] theorem State.answer_pools (s : State) (c : Cmd) (st r : Nat) (p : List Byte) : (s.answer c st r p).pools = s.pools := rfl
@[simp] theorem State.answer_time (s : State) (c : Cmd) (st r : Nat) (p : List Byte) : (s.answer c st r p).time = s.time := rfl
@[simp] theorem State.answer_tick (s : State) (c : Cmd) (st r : Nat) (p : List Byte) : (s.answer c st r p).tick = s.tick := rfl
@[simp] theorem State.answer_ucie (s : State) (c : Cmd) (st r : Nat) (p : List Byte) : (s.answer c st r p).ucie = s.ucie := rfl
@[simp] theorem State.answer_nvm (s : State) (c : Cmd) (st r : Nat) (p : List Byte) : (s.answer c st r p).nvm = s.nvm := rfl
@[simp] theorem State.answer_dmc (s : State) (c : Cmd) (st r : Nat) (p : List Byte) : (s.answer c st r p).dmc = s.dmc := rfl
@[simp] theorem State.answer_pmu (s : State) (c : Cmd) (st r : Nat) (p : List Byte) : (s.answer c st r p).pmu = s.pmu := rfl
@[simp] theorem State.answer_plates (s : State) (c : Cmd) (st r : Nat) (p : List Byte) : (s.answer c st r p).plates = s.plates := rfl
@[simp] theorem State.answer_fixers (s : State) (c : Cmd) (st r : Nat) (p : List Byte) : (s.answer c st r p).fixers = s.fixers := rfl
@[simp] theorem State.answer_expo (s : State) (c : Cmd) (st r : Nat) (p : List Byte) : (s.answer c st r p).expo = s.expo := rfl
@[simp] theorem State.answer_rayMap (s : State) (c : Cmd) (st r : Nat) (p : List Byte) : (s.answer c st r p).rayMap = s.rayMap := rfl
@[simp] theorem State.answer_rfc (s : State) (c : Cmd) (st r : Nat) (p : List Byte) : (s.answer c st r p).rfc = s.rfc := rfl
@[simp] theorem State.answer_corr (s : State) (c : Cmd) (st r : Nat) (p : List Byte) : (s.answer c st r p).corr = s.corr := rfl
@[simp] theorem State.answer_easels (s : State) (c : Cmd) (st r : Nat) (p : List Byte) : (s.answer c st r p).easels = s.easels := rfl
@[simp] theorem State.answer_ports (s : State) (c : Cmd) (st r : Nat) (p : List Byte) : (s.answer c st r p).ports = s.ports := rfl
@[simp] theorem State.answer_panel (s : State) (c : Cmd) (st r : Nat) (p : List Byte) : (s.answer c st r p).panel = s.panel := rfl
@[simp] theorem State.answer_contact (s : State) (c : Cmd) (st r : Nat) (p : List Byte) : (s.answer c st r p).contact = s.contact := rfl
@[simp] theorem State.answer_thm (s : State) (c : Cmd) (st r : Nat) (p : List Byte) : (s.answer c st r p).thm = s.thm := rfl
@[simp] theorem State.answer_cal (s : State) (c : Cmd) (st r : Nat) (p : List Byte) : (s.answer c st r p).cal = s.cal := rfl
@[simp] theorem State.answer_cnt (s : State) (c : Cmd) (st r : Nat) (p : List Byte) : (s.answer c st r p).cnt = s.cnt := rfl
@[simp] theorem State.answer_loads (s : State) (c : Cmd) (st r : Nat) (p : List Byte) : (s.answer c st r p).loads = s.loads := rfl
@[simp] theorem State.answer_caches (s : State) (c : Cmd) (st r : Nat) (p : List Byte) : (s.answer c st r p).caches = s.caches := rfl

/-! ### State.done -/

@[simp] theorem State.done_pending (s : State) (c : Cmd) (p : List Byte) : (s.done c p).pending = s.pending := rfl
@[simp] theorem State.done_now (s : State) (c : Cmd) (p : List Byte) : (s.done c p).now = s.now := rfl
@[simp] theorem State.done_fresh (s : State) (c : Cmd) (p : List Byte) : (s.done c p).fresh = s.fresh := rfl
@[simp] theorem State.done_regs (s : State) (c : Cmd) (p : List Byte) : (s.done c p).regs = s.regs := rfl
@[simp] theorem State.done_evu (s : State) (c : Cmd) (p : List Byte) : (s.done c p).evu = s.evu := rfl
@[simp] theorem State.done_pools (s : State) (c : Cmd) (p : List Byte) : (s.done c p).pools = s.pools := rfl
@[simp] theorem State.done_time (s : State) (c : Cmd) (p : List Byte) : (s.done c p).time = s.time := rfl
@[simp] theorem State.done_tick (s : State) (c : Cmd) (p : List Byte) : (s.done c p).tick = s.tick := rfl
@[simp] theorem State.done_ucie (s : State) (c : Cmd) (p : List Byte) : (s.done c p).ucie = s.ucie := rfl
@[simp] theorem State.done_nvm (s : State) (c : Cmd) (p : List Byte) : (s.done c p).nvm = s.nvm := rfl
@[simp] theorem State.done_dmc (s : State) (c : Cmd) (p : List Byte) : (s.done c p).dmc = s.dmc := rfl
@[simp] theorem State.done_pmu (s : State) (c : Cmd) (p : List Byte) : (s.done c p).pmu = s.pmu := rfl
@[simp] theorem State.done_plates (s : State) (c : Cmd) (p : List Byte) : (s.done c p).plates = s.plates := rfl
@[simp] theorem State.done_fixers (s : State) (c : Cmd) (p : List Byte) : (s.done c p).fixers = s.fixers := rfl
@[simp] theorem State.done_expo (s : State) (c : Cmd) (p : List Byte) : (s.done c p).expo = s.expo := rfl
@[simp] theorem State.done_rayMap (s : State) (c : Cmd) (p : List Byte) : (s.done c p).rayMap = s.rayMap := rfl
@[simp] theorem State.done_rfc (s : State) (c : Cmd) (p : List Byte) : (s.done c p).rfc = s.rfc := rfl
@[simp] theorem State.done_corr (s : State) (c : Cmd) (p : List Byte) : (s.done c p).corr = s.corr := rfl
@[simp] theorem State.done_easels (s : State) (c : Cmd) (p : List Byte) : (s.done c p).easels = s.easels := rfl
@[simp] theorem State.done_ports (s : State) (c : Cmd) (p : List Byte) : (s.done c p).ports = s.ports := rfl
@[simp] theorem State.done_panel (s : State) (c : Cmd) (p : List Byte) : (s.done c p).panel = s.panel := rfl
@[simp] theorem State.done_contact (s : State) (c : Cmd) (p : List Byte) : (s.done c p).contact = s.contact := rfl
@[simp] theorem State.done_thm (s : State) (c : Cmd) (p : List Byte) : (s.done c p).thm = s.thm := rfl
@[simp] theorem State.done_cal (s : State) (c : Cmd) (p : List Byte) : (s.done c p).cal = s.cal := rfl
@[simp] theorem State.done_cnt (s : State) (c : Cmd) (p : List Byte) : (s.done c p).cnt = s.cnt := rfl
@[simp] theorem State.done_loads (s : State) (c : Cmd) (p : List Byte) : (s.done c p).loads = s.loads := rfl
@[simp] theorem State.done_caches (s : State) (c : Cmd) (p : List Byte) : (s.done c p).caches = s.caches := rfl

/-! ### State.refuse -/

@[simp] theorem State.refuse_pending (s : State) (c : Cmd) (r : Nat) : (s.refuse c r).pending = s.pending := rfl
@[simp] theorem State.refuse_now (s : State) (c : Cmd) (r : Nat) : (s.refuse c r).now = s.now := rfl
@[simp] theorem State.refuse_fresh (s : State) (c : Cmd) (r : Nat) : (s.refuse c r).fresh = s.fresh := rfl
@[simp] theorem State.refuse_regs (s : State) (c : Cmd) (r : Nat) : (s.refuse c r).regs = s.regs := rfl
@[simp] theorem State.refuse_evu (s : State) (c : Cmd) (r : Nat) : (s.refuse c r).evu = s.evu := rfl
@[simp] theorem State.refuse_pools (s : State) (c : Cmd) (r : Nat) : (s.refuse c r).pools = s.pools := rfl
@[simp] theorem State.refuse_time (s : State) (c : Cmd) (r : Nat) : (s.refuse c r).time = s.time := rfl
@[simp] theorem State.refuse_tick (s : State) (c : Cmd) (r : Nat) : (s.refuse c r).tick = s.tick := rfl
@[simp] theorem State.refuse_ucie (s : State) (c : Cmd) (r : Nat) : (s.refuse c r).ucie = s.ucie := rfl
@[simp] theorem State.refuse_nvm (s : State) (c : Cmd) (r : Nat) : (s.refuse c r).nvm = s.nvm := rfl
@[simp] theorem State.refuse_dmc (s : State) (c : Cmd) (r : Nat) : (s.refuse c r).dmc = s.dmc := rfl
@[simp] theorem State.refuse_pmu (s : State) (c : Cmd) (r : Nat) : (s.refuse c r).pmu = s.pmu := rfl
@[simp] theorem State.refuse_plates (s : State) (c : Cmd) (r : Nat) : (s.refuse c r).plates = s.plates := rfl
@[simp] theorem State.refuse_fixers (s : State) (c : Cmd) (r : Nat) : (s.refuse c r).fixers = s.fixers := rfl
@[simp] theorem State.refuse_expo (s : State) (c : Cmd) (r : Nat) : (s.refuse c r).expo = s.expo := rfl
@[simp] theorem State.refuse_rayMap (s : State) (c : Cmd) (r : Nat) : (s.refuse c r).rayMap = s.rayMap := rfl
@[simp] theorem State.refuse_rfc (s : State) (c : Cmd) (r : Nat) : (s.refuse c r).rfc = s.rfc := rfl
@[simp] theorem State.refuse_corr (s : State) (c : Cmd) (r : Nat) : (s.refuse c r).corr = s.corr := rfl
@[simp] theorem State.refuse_easels (s : State) (c : Cmd) (r : Nat) : (s.refuse c r).easels = s.easels := rfl
@[simp] theorem State.refuse_ports (s : State) (c : Cmd) (r : Nat) : (s.refuse c r).ports = s.ports := rfl
@[simp] theorem State.refuse_panel (s : State) (c : Cmd) (r : Nat) : (s.refuse c r).panel = s.panel := rfl
@[simp] theorem State.refuse_contact (s : State) (c : Cmd) (r : Nat) : (s.refuse c r).contact = s.contact := rfl
@[simp] theorem State.refuse_thm (s : State) (c : Cmd) (r : Nat) : (s.refuse c r).thm = s.thm := rfl
@[simp] theorem State.refuse_cal (s : State) (c : Cmd) (r : Nat) : (s.refuse c r).cal = s.cal := rfl
@[simp] theorem State.refuse_cnt (s : State) (c : Cmd) (r : Nat) : (s.refuse c r).cnt = s.cnt := rfl
@[simp] theorem State.refuse_loads (s : State) (c : Cmd) (r : Nat) : (s.refuse c r).loads = s.loads := rfl
@[simp] theorem State.refuse_caches (s : State) (c : Cmd) (r : Nat) : (s.refuse c r).caches = s.caches := rfl

/-! ### State.fail -/

@[simp] theorem State.fail_pending (s : State) (c : Cmd) (r : Nat) : (s.fail c r).pending = s.pending := rfl
@[simp] theorem State.fail_now (s : State) (c : Cmd) (r : Nat) : (s.fail c r).now = s.now := rfl
@[simp] theorem State.fail_fresh (s : State) (c : Cmd) (r : Nat) : (s.fail c r).fresh = s.fresh := rfl
@[simp] theorem State.fail_regs (s : State) (c : Cmd) (r : Nat) : (s.fail c r).regs = s.regs := rfl
@[simp] theorem State.fail_evu (s : State) (c : Cmd) (r : Nat) : (s.fail c r).evu = s.evu := rfl
@[simp] theorem State.fail_pools (s : State) (c : Cmd) (r : Nat) : (s.fail c r).pools = s.pools := rfl
@[simp] theorem State.fail_time (s : State) (c : Cmd) (r : Nat) : (s.fail c r).time = s.time := rfl
@[simp] theorem State.fail_tick (s : State) (c : Cmd) (r : Nat) : (s.fail c r).tick = s.tick := rfl
@[simp] theorem State.fail_ucie (s : State) (c : Cmd) (r : Nat) : (s.fail c r).ucie = s.ucie := rfl
@[simp] theorem State.fail_nvm (s : State) (c : Cmd) (r : Nat) : (s.fail c r).nvm = s.nvm := rfl
@[simp] theorem State.fail_dmc (s : State) (c : Cmd) (r : Nat) : (s.fail c r).dmc = s.dmc := rfl
@[simp] theorem State.fail_pmu (s : State) (c : Cmd) (r : Nat) : (s.fail c r).pmu = s.pmu := rfl
@[simp] theorem State.fail_plates (s : State) (c : Cmd) (r : Nat) : (s.fail c r).plates = s.plates := rfl
@[simp] theorem State.fail_fixers (s : State) (c : Cmd) (r : Nat) : (s.fail c r).fixers = s.fixers := rfl
@[simp] theorem State.fail_expo (s : State) (c : Cmd) (r : Nat) : (s.fail c r).expo = s.expo := rfl
@[simp] theorem State.fail_rayMap (s : State) (c : Cmd) (r : Nat) : (s.fail c r).rayMap = s.rayMap := rfl
@[simp] theorem State.fail_rfc (s : State) (c : Cmd) (r : Nat) : (s.fail c r).rfc = s.rfc := rfl
@[simp] theorem State.fail_corr (s : State) (c : Cmd) (r : Nat) : (s.fail c r).corr = s.corr := rfl
@[simp] theorem State.fail_easels (s : State) (c : Cmd) (r : Nat) : (s.fail c r).easels = s.easels := rfl
@[simp] theorem State.fail_ports (s : State) (c : Cmd) (r : Nat) : (s.fail c r).ports = s.ports := rfl
@[simp] theorem State.fail_panel (s : State) (c : Cmd) (r : Nat) : (s.fail c r).panel = s.panel := rfl
@[simp] theorem State.fail_contact (s : State) (c : Cmd) (r : Nat) : (s.fail c r).contact = s.contact := rfl
@[simp] theorem State.fail_thm (s : State) (c : Cmd) (r : Nat) : (s.fail c r).thm = s.thm := rfl
@[simp] theorem State.fail_cal (s : State) (c : Cmd) (r : Nat) : (s.fail c r).cal = s.cal := rfl
@[simp] theorem State.fail_cnt (s : State) (c : Cmd) (r : Nat) : (s.fail c r).cnt = s.cnt := rfl
@[simp] theorem State.fail_loads (s : State) (c : Cmd) (r : Nat) : (s.fail c r).loads = s.loads := rfl
@[simp] theorem State.fail_caches (s : State) (c : Cmd) (r : Nat) : (s.fail c r).caches = s.caches := rfl

/-! ### State.setDramByte -/

@[simp] theorem State.setDramByte_pending (s : State) (a : Nat) (b : Byte) : (s.setDramByte a b).pending = s.pending := rfl
@[simp] theorem State.setDramByte_now (s : State) (a : Nat) (b : Byte) : (s.setDramByte a b).now = s.now := rfl
@[simp] theorem State.setDramByte_fresh (s : State) (a : Nat) (b : Byte) : (s.setDramByte a b).fresh = s.fresh := rfl
@[simp] theorem State.setDramByte_regs (s : State) (a : Nat) (b : Byte) : (s.setDramByte a b).regs = s.regs := rfl
@[simp] theorem State.setDramByte_evu (s : State) (a : Nat) (b : Byte) : (s.setDramByte a b).evu = s.evu := rfl
@[simp] theorem State.setDramByte_pools (s : State) (a : Nat) (b : Byte) : (s.setDramByte a b).pools = s.pools := rfl
@[simp] theorem State.setDramByte_time (s : State) (a : Nat) (b : Byte) : (s.setDramByte a b).time = s.time := rfl
@[simp] theorem State.setDramByte_tick (s : State) (a : Nat) (b : Byte) : (s.setDramByte a b).tick = s.tick := rfl
@[simp] theorem State.setDramByte_dk (s : State) (a : Nat) (b : Byte) : (s.setDramByte a b).dk = s.dk := rfl
@[simp] theorem State.setDramByte_trays (s : State) (a : Nat) (b : Byte) : (s.setDramByte a b).trays = s.trays := rfl
@[simp] theorem State.setDramByte_ucie (s : State) (a : Nat) (b : Byte) : (s.setDramByte a b).ucie = s.ucie := rfl
@[simp] theorem State.setDramByte_nvm (s : State) (a : Nat) (b : Byte) : (s.setDramByte a b).nvm = s.nvm := rfl
@[simp] theorem State.setDramByte_pmu (s : State) (a : Nat) (b : Byte) : (s.setDramByte a b).pmu = s.pmu := rfl
@[simp] theorem State.setDramByte_plates (s : State) (a : Nat) (b : Byte) : (s.setDramByte a b).plates = s.plates := rfl
@[simp] theorem State.setDramByte_fixers (s : State) (a : Nat) (b : Byte) : (s.setDramByte a b).fixers = s.fixers := rfl
@[simp] theorem State.setDramByte_expo (s : State) (a : Nat) (b : Byte) : (s.setDramByte a b).expo = s.expo := rfl
@[simp] theorem State.setDramByte_rayMap (s : State) (a : Nat) (b : Byte) : (s.setDramByte a b).rayMap = s.rayMap := rfl
@[simp] theorem State.setDramByte_rfc (s : State) (a : Nat) (b : Byte) : (s.setDramByte a b).rfc = s.rfc := rfl
@[simp] theorem State.setDramByte_corr (s : State) (a : Nat) (b : Byte) : (s.setDramByte a b).corr = s.corr := rfl
@[simp] theorem State.setDramByte_easels (s : State) (a : Nat) (b : Byte) : (s.setDramByte a b).easels = s.easels := rfl
@[simp] theorem State.setDramByte_ports (s : State) (a : Nat) (b : Byte) : (s.setDramByte a b).ports = s.ports := rfl
@[simp] theorem State.setDramByte_panel (s : State) (a : Nat) (b : Byte) : (s.setDramByte a b).panel = s.panel := rfl
@[simp] theorem State.setDramByte_contact (s : State) (a : Nat) (b : Byte) : (s.setDramByte a b).contact = s.contact := rfl
@[simp] theorem State.setDramByte_thm (s : State) (a : Nat) (b : Byte) : (s.setDramByte a b).thm = s.thm := rfl
@[simp] theorem State.setDramByte_cal (s : State) (a : Nat) (b : Byte) : (s.setDramByte a b).cal = s.cal := rfl
@[simp] theorem State.setDramByte_cnt (s : State) (a : Nat) (b : Byte) : (s.setDramByte a b).cnt = s.cnt := rfl
@[simp] theorem State.setDramByte_loads (s : State) (a : Nat) (b : Byte) : (s.setDramByte a b).loads = s.loads := rfl
@[simp] theorem State.setDramByte_caches (s : State) (a : Nat) (b : Byte) : (s.setDramByte a b).caches = s.caches := rfl

/-! ### State.dramWrite -/

@[simp] theorem State.dramWrite_pending (s : State) (a : Nat) (bs : List Byte) : (s.dramWrite a bs).pending = s.pending := rfl
@[simp] theorem State.dramWrite_now (s : State) (a : Nat) (bs : List Byte) : (s.dramWrite a bs).now = s.now := rfl
@[simp] theorem State.dramWrite_fresh (s : State) (a : Nat) (bs : List Byte) : (s.dramWrite a bs).fresh = s.fresh := rfl
@[simp] theorem State.dramWrite_regs (s : State) (a : Nat) (bs : List Byte) : (s.dramWrite a bs).regs = s.regs := rfl
@[simp] theorem State.dramWrite_evu (s : State) (a : Nat) (bs : List Byte) : (s.dramWrite a bs).evu = s.evu := rfl
@[simp] theorem State.dramWrite_pools (s : State) (a : Nat) (bs : List Byte) : (s.dramWrite a bs).pools = s.pools := rfl
@[simp] theorem State.dramWrite_time (s : State) (a : Nat) (bs : List Byte) : (s.dramWrite a bs).time = s.time := rfl
@[simp] theorem State.dramWrite_tick (s : State) (a : Nat) (bs : List Byte) : (s.dramWrite a bs).tick = s.tick := rfl
@[simp] theorem State.dramWrite_dk (s : State) (a : Nat) (bs : List Byte) : (s.dramWrite a bs).dk = s.dk := rfl
@[simp] theorem State.dramWrite_trays (s : State) (a : Nat) (bs : List Byte) : (s.dramWrite a bs).trays = s.trays := rfl
@[simp] theorem State.dramWrite_ucie (s : State) (a : Nat) (bs : List Byte) : (s.dramWrite a bs).ucie = s.ucie := rfl
@[simp] theorem State.dramWrite_nvm (s : State) (a : Nat) (bs : List Byte) : (s.dramWrite a bs).nvm = s.nvm := rfl
@[simp] theorem State.dramWrite_pmu (s : State) (a : Nat) (bs : List Byte) : (s.dramWrite a bs).pmu = s.pmu := rfl
@[simp] theorem State.dramWrite_plates (s : State) (a : Nat) (bs : List Byte) : (s.dramWrite a bs).plates = s.plates := rfl
@[simp] theorem State.dramWrite_fixers (s : State) (a : Nat) (bs : List Byte) : (s.dramWrite a bs).fixers = s.fixers := rfl
@[simp] theorem State.dramWrite_expo (s : State) (a : Nat) (bs : List Byte) : (s.dramWrite a bs).expo = s.expo := rfl
@[simp] theorem State.dramWrite_rayMap (s : State) (a : Nat) (bs : List Byte) : (s.dramWrite a bs).rayMap = s.rayMap := rfl
@[simp] theorem State.dramWrite_rfc (s : State) (a : Nat) (bs : List Byte) : (s.dramWrite a bs).rfc = s.rfc := rfl
@[simp] theorem State.dramWrite_corr (s : State) (a : Nat) (bs : List Byte) : (s.dramWrite a bs).corr = s.corr := rfl
@[simp] theorem State.dramWrite_easels (s : State) (a : Nat) (bs : List Byte) : (s.dramWrite a bs).easels = s.easels := rfl
@[simp] theorem State.dramWrite_ports (s : State) (a : Nat) (bs : List Byte) : (s.dramWrite a bs).ports = s.ports := rfl
@[simp] theorem State.dramWrite_panel (s : State) (a : Nat) (bs : List Byte) : (s.dramWrite a bs).panel = s.panel := rfl
@[simp] theorem State.dramWrite_contact (s : State) (a : Nat) (bs : List Byte) : (s.dramWrite a bs).contact = s.contact := rfl
@[simp] theorem State.dramWrite_thm (s : State) (a : Nat) (bs : List Byte) : (s.dramWrite a bs).thm = s.thm := rfl
@[simp] theorem State.dramWrite_cal (s : State) (a : Nat) (bs : List Byte) : (s.dramWrite a bs).cal = s.cal := rfl
@[simp] theorem State.dramWrite_cnt (s : State) (a : Nat) (bs : List Byte) : (s.dramWrite a bs).cnt = s.cnt := rfl
@[simp] theorem State.dramWrite_loads (s : State) (a : Nat) (bs : List Byte) : (s.dramWrite a bs).loads = s.loads := rfl
@[simp] theorem State.dramWrite_caches (s : State) (a : Nat) (bs : List Byte) : (s.dramWrite a bs).caches = s.caches := rfl

/-! ### State.setPool -/

@[simp] theorem State.setPool_pending (s : State) (k : Nat) (p : Pool) : (s.setPool k p).pending = s.pending := by unfold State.setPool; split <;> rfl
@[simp] theorem State.setPool_now (s : State) (k : Nat) (p : Pool) : (s.setPool k p).now = s.now := by unfold State.setPool; split <;> rfl
@[simp] theorem State.setPool_fresh (s : State) (k : Nat) (p : Pool) : (s.setPool k p).fresh = s.fresh := by unfold State.setPool; split <;> rfl
@[simp] theorem State.setPool_regs (s : State) (k : Nat) (p : Pool) : (s.setPool k p).regs = s.regs := by unfold State.setPool; split <;> rfl
@[simp] theorem State.setPool_evu (s : State) (k : Nat) (p : Pool) : (s.setPool k p).evu = s.evu := by unfold State.setPool; split <;> rfl
@[simp] theorem State.setPool_time (s : State) (k : Nat) (p : Pool) : (s.setPool k p).time = s.time := by unfold State.setPool; split <;> rfl
@[simp] theorem State.setPool_tick (s : State) (k : Nat) (p : Pool) : (s.setPool k p).tick = s.tick := by unfold State.setPool; split <;> rfl
@[simp] theorem State.setPool_dk (s : State) (k : Nat) (p : Pool) : (s.setPool k p).dk = s.dk := by unfold State.setPool; split <;> rfl
@[simp] theorem State.setPool_trays (s : State) (k : Nat) (p : Pool) : (s.setPool k p).trays = s.trays := by unfold State.setPool; split <;> rfl
@[simp] theorem State.setPool_ucie (s : State) (k : Nat) (p : Pool) : (s.setPool k p).ucie = s.ucie := by unfold State.setPool; split <;> rfl
@[simp] theorem State.setPool_nvm (s : State) (k : Nat) (p : Pool) : (s.setPool k p).nvm = s.nvm := by unfold State.setPool; split <;> rfl
@[simp] theorem State.setPool_dmc (s : State) (k : Nat) (p : Pool) : (s.setPool k p).dmc = s.dmc := by unfold State.setPool; split <;> rfl
@[simp] theorem State.setPool_pmu (s : State) (k : Nat) (p : Pool) : (s.setPool k p).pmu = s.pmu := by unfold State.setPool; split <;> rfl
@[simp] theorem State.setPool_plates (s : State) (k : Nat) (p : Pool) : (s.setPool k p).plates = s.plates := by unfold State.setPool; split <;> rfl
@[simp] theorem State.setPool_fixers (s : State) (k : Nat) (p : Pool) : (s.setPool k p).fixers = s.fixers := by unfold State.setPool; split <;> rfl
@[simp] theorem State.setPool_expo (s : State) (k : Nat) (p : Pool) : (s.setPool k p).expo = s.expo := by unfold State.setPool; split <;> rfl
@[simp] theorem State.setPool_rayMap (s : State) (k : Nat) (p : Pool) : (s.setPool k p).rayMap = s.rayMap := by unfold State.setPool; split <;> rfl
@[simp] theorem State.setPool_rfc (s : State) (k : Nat) (p : Pool) : (s.setPool k p).rfc = s.rfc := by unfold State.setPool; split <;> rfl
@[simp] theorem State.setPool_corr (s : State) (k : Nat) (p : Pool) : (s.setPool k p).corr = s.corr := by unfold State.setPool; split <;> rfl
@[simp] theorem State.setPool_easels (s : State) (k : Nat) (p : Pool) : (s.setPool k p).easels = s.easels := by unfold State.setPool; split <;> rfl
@[simp] theorem State.setPool_ports (s : State) (k : Nat) (p : Pool) : (s.setPool k p).ports = s.ports := by unfold State.setPool; split <;> rfl
@[simp] theorem State.setPool_panel (s : State) (k : Nat) (p : Pool) : (s.setPool k p).panel = s.panel := by unfold State.setPool; split <;> rfl
@[simp] theorem State.setPool_contact (s : State) (k : Nat) (p : Pool) : (s.setPool k p).contact = s.contact := by unfold State.setPool; split <;> rfl
@[simp] theorem State.setPool_thm (s : State) (k : Nat) (p : Pool) : (s.setPool k p).thm = s.thm := by unfold State.setPool; split <;> rfl
@[simp] theorem State.setPool_cal (s : State) (k : Nat) (p : Pool) : (s.setPool k p).cal = s.cal := by unfold State.setPool; split <;> rfl
@[simp] theorem State.setPool_cnt (s : State) (k : Nat) (p : Pool) : (s.setPool k p).cnt = s.cnt := by unfold State.setPool; split <;> rfl
@[simp] theorem State.setPool_loads (s : State) (k : Nat) (p : Pool) : (s.setPool k p).loads = s.loads := by unfold State.setPool; split <;> rfl
@[simp] theorem State.setPool_caches (s : State) (k : Nat) (p : Pool) : (s.setPool k p).caches = s.caches := by unfold State.setPool; split <;> rfl

/-! ### State.issue -/

@[simp] theorem State.issue_pending (s : State) (k n : Nat) : (s.issue k n).pending = s.pending := by simp [State.issue]
@[simp] theorem State.issue_now (s : State) (k n : Nat) : (s.issue k n).now = s.now := by simp [State.issue]
@[simp] theorem State.issue_fresh (s : State) (k n : Nat) : (s.issue k n).fresh = s.fresh := by simp [State.issue]
@[simp] theorem State.issue_regs (s : State) (k n : Nat) : (s.issue k n).regs = s.regs := by simp [State.issue]
@[simp] theorem State.issue_evu (s : State) (k n : Nat) : (s.issue k n).evu = s.evu := by simp [State.issue]
@[simp] theorem State.issue_time (s : State) (k n : Nat) : (s.issue k n).time = s.time := by simp [State.issue]
@[simp] theorem State.issue_tick (s : State) (k n : Nat) : (s.issue k n).tick = s.tick := by simp [State.issue]
@[simp] theorem State.issue_dk (s : State) (k n : Nat) : (s.issue k n).dk = s.dk := by simp [State.issue]
@[simp] theorem State.issue_trays (s : State) (k n : Nat) : (s.issue k n).trays = s.trays := by simp [State.issue]
@[simp] theorem State.issue_ucie (s : State) (k n : Nat) : (s.issue k n).ucie = s.ucie := by simp [State.issue]
@[simp] theorem State.issue_nvm (s : State) (k n : Nat) : (s.issue k n).nvm = s.nvm := by simp [State.issue]
@[simp] theorem State.issue_dmc (s : State) (k n : Nat) : (s.issue k n).dmc = s.dmc := by simp [State.issue]
@[simp] theorem State.issue_pmu (s : State) (k n : Nat) : (s.issue k n).pmu = s.pmu := by simp [State.issue]
@[simp] theorem State.issue_plates (s : State) (k n : Nat) : (s.issue k n).plates = s.plates := by simp [State.issue]
@[simp] theorem State.issue_fixers (s : State) (k n : Nat) : (s.issue k n).fixers = s.fixers := by simp [State.issue]
@[simp] theorem State.issue_expo (s : State) (k n : Nat) : (s.issue k n).expo = s.expo := by simp [State.issue]
@[simp] theorem State.issue_rayMap (s : State) (k n : Nat) : (s.issue k n).rayMap = s.rayMap := by simp [State.issue]
@[simp] theorem State.issue_rfc (s : State) (k n : Nat) : (s.issue k n).rfc = s.rfc := by simp [State.issue]
@[simp] theorem State.issue_corr (s : State) (k n : Nat) : (s.issue k n).corr = s.corr := by simp [State.issue]
@[simp] theorem State.issue_easels (s : State) (k n : Nat) : (s.issue k n).easels = s.easels := by simp [State.issue]
@[simp] theorem State.issue_ports (s : State) (k n : Nat) : (s.issue k n).ports = s.ports := by simp [State.issue]
@[simp] theorem State.issue_panel (s : State) (k n : Nat) : (s.issue k n).panel = s.panel := by simp [State.issue]
@[simp] theorem State.issue_contact (s : State) (k n : Nat) : (s.issue k n).contact = s.contact := by simp [State.issue]
@[simp] theorem State.issue_thm (s : State) (k n : Nat) : (s.issue k n).thm = s.thm := by simp [State.issue]
@[simp] theorem State.issue_cal (s : State) (k n : Nat) : (s.issue k n).cal = s.cal := by simp [State.issue]
@[simp] theorem State.issue_cnt (s : State) (k n : Nat) : (s.issue k n).cnt = s.cnt := by simp [State.issue]
@[simp] theorem State.issue_loads (s : State) (k n : Nat) : (s.issue k n).loads = s.loads := by simp [State.issue]
@[simp] theorem State.issue_caches (s : State) (k n : Nat) : (s.issue k n).caches = s.caches := by simp [State.issue]

/-! ### State.giveBack -/

@[simp] theorem State.giveBack_pending (s : State) (k n : Nat) : (s.giveBack k n).pending = s.pending := by simp [State.giveBack]
@[simp] theorem State.giveBack_now (s : State) (k n : Nat) : (s.giveBack k n).now = s.now := by simp [State.giveBack]
@[simp] theorem State.giveBack_fresh (s : State) (k n : Nat) : (s.giveBack k n).fresh = s.fresh := by simp [State.giveBack]
@[simp] theorem State.giveBack_regs (s : State) (k n : Nat) : (s.giveBack k n).regs = s.regs := by simp [State.giveBack]
@[simp] theorem State.giveBack_evu (s : State) (k n : Nat) : (s.giveBack k n).evu = s.evu := by simp [State.giveBack]
@[simp] theorem State.giveBack_time (s : State) (k n : Nat) : (s.giveBack k n).time = s.time := by simp [State.giveBack]
@[simp] theorem State.giveBack_tick (s : State) (k n : Nat) : (s.giveBack k n).tick = s.tick := by simp [State.giveBack]
@[simp] theorem State.giveBack_dk (s : State) (k n : Nat) : (s.giveBack k n).dk = s.dk := by simp [State.giveBack]
@[simp] theorem State.giveBack_trays (s : State) (k n : Nat) : (s.giveBack k n).trays = s.trays := by simp [State.giveBack]
@[simp] theorem State.giveBack_ucie (s : State) (k n : Nat) : (s.giveBack k n).ucie = s.ucie := by simp [State.giveBack]
@[simp] theorem State.giveBack_nvm (s : State) (k n : Nat) : (s.giveBack k n).nvm = s.nvm := by simp [State.giveBack]
@[simp] theorem State.giveBack_dmc (s : State) (k n : Nat) : (s.giveBack k n).dmc = s.dmc := by simp [State.giveBack]
@[simp] theorem State.giveBack_pmu (s : State) (k n : Nat) : (s.giveBack k n).pmu = s.pmu := by simp [State.giveBack]
@[simp] theorem State.giveBack_plates (s : State) (k n : Nat) : (s.giveBack k n).plates = s.plates := by simp [State.giveBack]
@[simp] theorem State.giveBack_fixers (s : State) (k n : Nat) : (s.giveBack k n).fixers = s.fixers := by simp [State.giveBack]
@[simp] theorem State.giveBack_expo (s : State) (k n : Nat) : (s.giveBack k n).expo = s.expo := by simp [State.giveBack]
@[simp] theorem State.giveBack_rayMap (s : State) (k n : Nat) : (s.giveBack k n).rayMap = s.rayMap := by simp [State.giveBack]
@[simp] theorem State.giveBack_rfc (s : State) (k n : Nat) : (s.giveBack k n).rfc = s.rfc := by simp [State.giveBack]
@[simp] theorem State.giveBack_corr (s : State) (k n : Nat) : (s.giveBack k n).corr = s.corr := by simp [State.giveBack]
@[simp] theorem State.giveBack_easels (s : State) (k n : Nat) : (s.giveBack k n).easels = s.easels := by simp [State.giveBack]
@[simp] theorem State.giveBack_ports (s : State) (k n : Nat) : (s.giveBack k n).ports = s.ports := by simp [State.giveBack]
@[simp] theorem State.giveBack_panel (s : State) (k n : Nat) : (s.giveBack k n).panel = s.panel := by simp [State.giveBack]
@[simp] theorem State.giveBack_contact (s : State) (k n : Nat) : (s.giveBack k n).contact = s.contact := by simp [State.giveBack]
@[simp] theorem State.giveBack_thm (s : State) (k n : Nat) : (s.giveBack k n).thm = s.thm := by simp [State.giveBack]
@[simp] theorem State.giveBack_cal (s : State) (k n : Nat) : (s.giveBack k n).cal = s.cal := by simp [State.giveBack]
@[simp] theorem State.giveBack_cnt (s : State) (k n : Nat) : (s.giveBack k n).cnt = s.cnt := by simp [State.giveBack]
@[simp] theorem State.giveBack_loads (s : State) (k n : Nat) : (s.giveBack k n).loads = s.loads := by simp [State.giveBack]
@[simp] theorem State.giveBack_caches (s : State) (k n : Nat) : (s.giveBack k n).caches = s.caches := by simp [State.giveBack]

/-! ### State.setTb -/

@[simp] theorem State.setTb_pending (s : State) (b : Nat) (x : Timebase) : (s.setTb b x).pending = s.pending := by unfold State.setTb; split <;> rfl
@[simp] theorem State.setTb_now (s : State) (b : Nat) (x : Timebase) : (s.setTb b x).now = s.now := by unfold State.setTb; split <;> rfl
@[simp] theorem State.setTb_fresh (s : State) (b : Nat) (x : Timebase) : (s.setTb b x).fresh = s.fresh := by unfold State.setTb; split <;> rfl
@[simp] theorem State.setTb_regs (s : State) (b : Nat) (x : Timebase) : (s.setTb b x).regs = s.regs := by unfold State.setTb; split <;> rfl
@[simp] theorem State.setTb_evu (s : State) (b : Nat) (x : Timebase) : (s.setTb b x).evu = s.evu := by unfold State.setTb; split <;> rfl
@[simp] theorem State.setTb_pools (s : State) (b : Nat) (x : Timebase) : (s.setTb b x).pools = s.pools := by unfold State.setTb; split <;> rfl
@[simp] theorem State.setTb_tick (s : State) (b : Nat) (x : Timebase) : (s.setTb b x).tick = s.tick := by unfold State.setTb; split <;> rfl
@[simp] theorem State.setTb_dk (s : State) (b : Nat) (x : Timebase) : (s.setTb b x).dk = s.dk := by unfold State.setTb; split <;> rfl
@[simp] theorem State.setTb_trays (s : State) (b : Nat) (x : Timebase) : (s.setTb b x).trays = s.trays := by unfold State.setTb; split <;> rfl
@[simp] theorem State.setTb_ucie (s : State) (b : Nat) (x : Timebase) : (s.setTb b x).ucie = s.ucie := by unfold State.setTb; split <;> rfl
@[simp] theorem State.setTb_nvm (s : State) (b : Nat) (x : Timebase) : (s.setTb b x).nvm = s.nvm := by unfold State.setTb; split <;> rfl
@[simp] theorem State.setTb_dmc (s : State) (b : Nat) (x : Timebase) : (s.setTb b x).dmc = s.dmc := by unfold State.setTb; split <;> rfl
@[simp] theorem State.setTb_pmu (s : State) (b : Nat) (x : Timebase) : (s.setTb b x).pmu = s.pmu := by unfold State.setTb; split <;> rfl
@[simp] theorem State.setTb_plates (s : State) (b : Nat) (x : Timebase) : (s.setTb b x).plates = s.plates := by unfold State.setTb; split <;> rfl
@[simp] theorem State.setTb_fixers (s : State) (b : Nat) (x : Timebase) : (s.setTb b x).fixers = s.fixers := by unfold State.setTb; split <;> rfl
@[simp] theorem State.setTb_expo (s : State) (b : Nat) (x : Timebase) : (s.setTb b x).expo = s.expo := by unfold State.setTb; split <;> rfl
@[simp] theorem State.setTb_rayMap (s : State) (b : Nat) (x : Timebase) : (s.setTb b x).rayMap = s.rayMap := by unfold State.setTb; split <;> rfl
@[simp] theorem State.setTb_rfc (s : State) (b : Nat) (x : Timebase) : (s.setTb b x).rfc = s.rfc := by unfold State.setTb; split <;> rfl
@[simp] theorem State.setTb_corr (s : State) (b : Nat) (x : Timebase) : (s.setTb b x).corr = s.corr := by unfold State.setTb; split <;> rfl
@[simp] theorem State.setTb_easels (s : State) (b : Nat) (x : Timebase) : (s.setTb b x).easels = s.easels := by unfold State.setTb; split <;> rfl
@[simp] theorem State.setTb_ports (s : State) (b : Nat) (x : Timebase) : (s.setTb b x).ports = s.ports := by unfold State.setTb; split <;> rfl
@[simp] theorem State.setTb_panel (s : State) (b : Nat) (x : Timebase) : (s.setTb b x).panel = s.panel := by unfold State.setTb; split <;> rfl
@[simp] theorem State.setTb_contact (s : State) (b : Nat) (x : Timebase) : (s.setTb b x).contact = s.contact := by unfold State.setTb; split <;> rfl
@[simp] theorem State.setTb_thm (s : State) (b : Nat) (x : Timebase) : (s.setTb b x).thm = s.thm := by unfold State.setTb; split <;> rfl
@[simp] theorem State.setTb_cal (s : State) (b : Nat) (x : Timebase) : (s.setTb b x).cal = s.cal := by unfold State.setTb; split <;> rfl
@[simp] theorem State.setTb_cnt (s : State) (b : Nat) (x : Timebase) : (s.setTb b x).cnt = s.cnt := by unfold State.setTb; split <;> rfl
@[simp] theorem State.setTb_loads (s : State) (b : Nat) (x : Timebase) : (s.setTb b x).loads = s.loads := by unfold State.setTb; split <;> rfl
@[simp] theorem State.setTb_caches (s : State) (b : Nat) (x : Timebase) : (s.setTb b x).caches = s.caches := by unfold State.setTb; split <;> rfl

/-! ### State.setCnt -/

@[simp] theorem State.setCnt_pending (s : State) (k v : Nat) : (s.setCnt k v).pending = s.pending := by unfold State.setCnt; split <;> rfl
@[simp] theorem State.setCnt_now (s : State) (k v : Nat) : (s.setCnt k v).now = s.now := by unfold State.setCnt; split <;> rfl
@[simp] theorem State.setCnt_fresh (s : State) (k v : Nat) : (s.setCnt k v).fresh = s.fresh := by unfold State.setCnt; split <;> rfl
@[simp] theorem State.setCnt_regs (s : State) (k v : Nat) : (s.setCnt k v).regs = s.regs := by unfold State.setCnt; split <;> rfl
@[simp] theorem State.setCnt_evu (s : State) (k v : Nat) : (s.setCnt k v).evu = s.evu := by unfold State.setCnt; split <;> rfl
@[simp] theorem State.setCnt_pools (s : State) (k v : Nat) : (s.setCnt k v).pools = s.pools := by unfold State.setCnt; split <;> rfl
@[simp] theorem State.setCnt_time (s : State) (k v : Nat) : (s.setCnt k v).time = s.time := by unfold State.setCnt; split <;> rfl
@[simp] theorem State.setCnt_tick (s : State) (k v : Nat) : (s.setCnt k v).tick = s.tick := by unfold State.setCnt; split <;> rfl
@[simp] theorem State.setCnt_dk (s : State) (k v : Nat) : (s.setCnt k v).dk = s.dk := by unfold State.setCnt; split <;> rfl
@[simp] theorem State.setCnt_trays (s : State) (k v : Nat) : (s.setCnt k v).trays = s.trays := by unfold State.setCnt; split <;> rfl
@[simp] theorem State.setCnt_ucie (s : State) (k v : Nat) : (s.setCnt k v).ucie = s.ucie := by unfold State.setCnt; split <;> rfl
@[simp] theorem State.setCnt_nvm (s : State) (k v : Nat) : (s.setCnt k v).nvm = s.nvm := by unfold State.setCnt; split <;> rfl
@[simp] theorem State.setCnt_dmc (s : State) (k v : Nat) : (s.setCnt k v).dmc = s.dmc := by unfold State.setCnt; split <;> rfl
@[simp] theorem State.setCnt_pmu (s : State) (k v : Nat) : (s.setCnt k v).pmu = s.pmu := by unfold State.setCnt; split <;> rfl
@[simp] theorem State.setCnt_plates (s : State) (k v : Nat) : (s.setCnt k v).plates = s.plates := by unfold State.setCnt; split <;> rfl
@[simp] theorem State.setCnt_fixers (s : State) (k v : Nat) : (s.setCnt k v).fixers = s.fixers := by unfold State.setCnt; split <;> rfl
@[simp] theorem State.setCnt_expo (s : State) (k v : Nat) : (s.setCnt k v).expo = s.expo := by unfold State.setCnt; split <;> rfl
@[simp] theorem State.setCnt_rayMap (s : State) (k v : Nat) : (s.setCnt k v).rayMap = s.rayMap := by unfold State.setCnt; split <;> rfl
@[simp] theorem State.setCnt_rfc (s : State) (k v : Nat) : (s.setCnt k v).rfc = s.rfc := by unfold State.setCnt; split <;> rfl
@[simp] theorem State.setCnt_corr (s : State) (k v : Nat) : (s.setCnt k v).corr = s.corr := by unfold State.setCnt; split <;> rfl
@[simp] theorem State.setCnt_easels (s : State) (k v : Nat) : (s.setCnt k v).easels = s.easels := by unfold State.setCnt; split <;> rfl
@[simp] theorem State.setCnt_ports (s : State) (k v : Nat) : (s.setCnt k v).ports = s.ports := by unfold State.setCnt; split <;> rfl
@[simp] theorem State.setCnt_panel (s : State) (k v : Nat) : (s.setCnt k v).panel = s.panel := by unfold State.setCnt; split <;> rfl
@[simp] theorem State.setCnt_contact (s : State) (k v : Nat) : (s.setCnt k v).contact = s.contact := by unfold State.setCnt; split <;> rfl
@[simp] theorem State.setCnt_thm (s : State) (k v : Nat) : (s.setCnt k v).thm = s.thm := by unfold State.setCnt; split <;> rfl
@[simp] theorem State.setCnt_cal (s : State) (k v : Nat) : (s.setCnt k v).cal = s.cal := by unfold State.setCnt; split <;> rfl
@[simp] theorem State.setCnt_loads (s : State) (k v : Nat) : (s.setCnt k v).loads = s.loads := by unfold State.setCnt; split <;> rfl
@[simp] theorem State.setCnt_caches (s : State) (k v : Nat) : (s.setCnt k v).caches = s.caches := by unfold State.setCnt; split <;> rfl

end Sys2Proof.Machine
end

