-- ==== Sys2Proof/Laws/Ops.lean ====
section
/-!
SUPPORT. What each shared operation can do, said once: registers and counters read as written, pools, Tray responses, the records at
the NVM port, and the event unit.
-/
namespace Sys2Proof.Machine

/-! ### Registers and counters -/

theorem State.reg_setReg_ne (s : State) {id i : Nat} (v : Word) (h : i ≠ id) : (s.setReg id v).reg i = s.reg i :=
  mapGet_mapSet_ne _ v h

theorem State.reg_setReg_same {s : State} (hw : mapWf resetWord s.regs.held = true) (id : Nat) (v : Word) :
    (s.setReg id v).reg id = v := mapGet_mapSet_same hw id v

theorem State.setReg_wf {s : State} (hw : mapWf resetWord s.regs.held = true) (id : Nat) (v : Word) :
    mapWf resetWord (s.setReg id v).regs.held = true := mapWf_mapSet hw id v

@[simp] theorem State.ctr_setReg (s : State) (id : Nat) (v : Word) (i : Nat) : (s.setReg id v).ctr i = s.ctr i := rfl
@[simp] theorem State.reg_addCtr (s : State) (id n i : Nat) : (s.addCtr id n).reg i = s.reg i := rfl

theorem State.ctr_addCtr_ne (s : State) {id i : Nat} (n : Nat) (h : i ≠ id) : (s.addCtr id n).ctr i = s.ctr i :=
  mapGet_mapSet_ne _ _ h

theorem State.ctr_addCtr_same {s : State} (hw : mapWf (fun _ => 0) s.regs.ctrs = true) (id n : Nat) :
    (s.addCtr id n).ctr id = (s.ctr id + n) % 2 ^ 64 := mapGet_mapSet_same hw id _

/-! ### Pools -/

theorem State.pool_setPool_ne (s : State) {k j : Nat} (p : Pool) (h : j ≠ k) : (s.setPool k p).pool j = s.pool j := by
  unfold State.setPool
  split
  · by_cases hj : j < 45
    · simp only [State.pool, dif_pos hj]
      exact Vector.getElem_set_ne _ _ (fun e => h e.symm)
    · simp only [State.pool, dif_neg hj]
  · rfl

theorem State.pool_setPool_same (s : State) {k : Nat} (p : Pool) (h : k < 45) : (s.setPool k p).pool k = p := by
  simp only [State.setPool, State.pool, dif_pos h]
  exact Vector.getElem_set_self _

theorem State.setPool_frame (s : State) (k : Nat) (p : Pool) : s.setPool k p = { s with pools := (s.setPool k p).pools } := by
  unfold State.setPool; split <;> rfl

/-! ### Tray responses -/

theorem State.tray_setTray_same (s : State) (t : Fin 8) (y : Tray) : (s.setTray t y).tray t = y := by
  simp [State.setTray, State.tray]

theorem State.tray_setTray_ne (s : State) {t u : Fin 8} (y : Tray) (h : u ≠ t) : (s.setTray t y).tray u = s.tray u := by
  have h' : t.val ≠ u.val := fun e => h (Fin.ext e.symm)
  simp [State.setTray, State.tray, Vector.getElem_set_ne, h']

/-- A final response is all that answering does. -/
theorem State.answer_answered (s : State) (c : Cmd) (status reason : Nat) (p : List Byte) :
    Answered s (s.answer c status reason p) c status reason p where
  rest := rfl
  dk := rfl
  held := State.tray_setTray_same s c.tray _
  others := fun _ h => State.tray_setTray_ne s _ h

theorem State.done_answered (s : State) (c : Cmd) (p : List Byte) : Answered s (s.done c p) c 0 0 p := s.answer_answered c 0 0 p

theorem State.refuse_answered (s : State) (c : Cmd) (r : Nat) : Answered s (s.refuse c r) c 2 r [] := s.answer_answered c 2 r []

theorem State.fail_answered (s : State) (c : Cmd) (r : Nat) : Answered s (s.fail c r) c 3 r [] := s.answer_answered c 3 r []

/-! ### Events -/

theorem EventEffect.refl (s : State) : EventEffect s s where
  rest := rfl
  maps := rfl
  reg := fun _ _ => rfl
  ctr := fun _ _ => rfl
  pool := fun _ _ => rfl
  cnt := fun _ _ => rfl
  nvm := rfl

theorem EventEffect.trans {s t u : State} (h : EventEffect s t) (k : EventEffect t u) : EventEffect s u where
  rest := by rw [k.rest, h.rest]
  maps := by rw [k.maps, h.maps]
  reg := fun i hi => (k.reg i hi).trans (h.reg i hi)
  ctr := fun i hi => (k.ctr i hi).trans (h.ctr i hi)
  pool := fun i hi => (k.pool i hi).trans (h.pool i hi)
  cnt := fun i hi => (k.cnt i hi).trans (h.cnt i hi)
  nvm := by rw [k.nvm, h.nvm]

/-- A write to a register of the event block. -/
theorem State.setReg_event (s : State) {id : Nat} (v : Word) (h : evuReg id = true) : EventEffect s (s.setReg id v) where
  rest := rfl
  maps := rfl
  reg := fun i hi => State.reg_setReg_ne s v (by rintro rfl; simp [h] at hi)
  ctr := fun _ _ => rfl
  pool := fun _ _ => rfl
  cnt := fun _ _ => rfl
  nvm := rfl

theorem evuReg_low {id : Nat} (h1 : 0x7400 ≤ id) (h2 : id < 0x7800) : evuReg id = true := by simp [evuReg, h1, h2]

theorem evuReg_cap {n k : Nat} (h1 : n < 576) (h2 : k < 4) : evuReg (idCap n k) = true := by
  simp only [evuReg, idCap, Bool.or_eq_true, Bool.and_eq_true, decide_eq_true_eq]
  omega

/-- A source that is not reserved is below 576. -/
theorem severity_bound {n : Nat} (h : (severity? n).isNone = false) : n < 576 := by
  unfold severity? at h
  rw [Option.isNone_map] at h
  cases hf : sourceRuns.find? fun r => r.1 ≤ n && n ≤ r.2.1 && (n - r.1) % r.2.2.1 == 0 with
  | none => rw [hf] at h; simp at h
  | some r =>
    have h1 := List.mem_of_find?_eq_some hf
    have h2 := List.find?_some hf
    simp only [Bool.and_eq_true, decide_eq_true_eq] at h2
    have h3 : ∀ r ∈ sourceRuns, r.2.1 < 576 := by decide
    have := h3 r h1
    omega

theorem State.evRecord_event (s : State) {n : Nat} (lo hi : Word) (h : n < 576) : EventEffect s (s.evRecord n lo hi) := by
  have hg : evuReg (idEvStatus (n / 32)) = true := evuReg_low (by simp only [idEvStatus]; omega) (by simp only [idEvStatus]; omega)
  unfold State.evRecord
  dsimp only
  split
  · exact State.setReg_event s _ (evuReg_cap h (by omega))
  · refine (State.setReg_event s _ hg).trans ((State.setReg_event _ _ (evuReg_cap h (by omega))).trans
      ((State.setReg_event _ _ (evuReg_cap h (by omega))).trans ((State.setReg_event _ _ (evuReg_cap h (by omega))).trans
        (State.setReg_event _ _ (evuReg_cap h (by omega))))))

theorem State.setInbox_event (s : State) (n : Nat) : EventEffect s (s.setInbox n) where
  rest := rfl
  maps := rfl
  reg := fun _ _ => rfl
  ctr := fun _ _ => rfl
  pool := fun _ _ => rfl
  cnt := fun _ _ => rfl
  nvm := rfl

theorem EventEffect.ite {p : Prop} [Decidable p] {s t u : State} (h : EventEffect s t) (k : EventEffect s u) :
    EventEffect s (if p then t else u) := by
  split
  · exact h
  · exact k

theorem State.evRise_event (s : State) (n : Nat) : EventEffect s (s.evRise n) := by
  have h1 : EventEffect s (if fatalSource n && !bit (s.reg idEvFatal) 31 then s.setReg idEvFatal (BitVec.ofNat 32 (2 ^ 31 + n)) else s) :=
    EventEffect.ite (State.setReg_event s _ (by decide)) (EventEffect.refl s)
  unfold State.evRise
  exact EventEffect.ite (h1.trans (State.setInbox_event _ n)) h1

theorem State.setPool_event (s : State) (p : Pool) : EventEffect s (s.setPool 44 p) where
  rest := rfl
  maps := rfl
  reg := fun _ _ => rfl
  ctr := fun _ _ => rfl
  pool := fun _ h => State.pool_setPool_ne s p h
  cnt := fun _ _ => rfl
  nvm := rfl

theorem State.evuQueue_event (s : State) (q : List EvMsg) : EventEffect s { s with evu := { s.evu with queue := q } } where
  rest := rfl
  maps := rfl
  reg := fun _ _ => rfl
  ctr := fun _ _ => rfl
  pool := fun _ _ => rfl
  cnt := fun _ _ => rfl
  nvm := rfl

theorem State.queueMsg_event (s : State) {n : Nat} (h : n < 576) : EventEffect s (s.queueMsg n) := by
  unfold State.queueMsg
  refine EventEffect.ite ((State.setPool_event s _).trans (State.evuQueue_event _ _)) ?_
  have h1 (p : Pool) (v : Word) : EventEffect s (((s.setPool 44 p).setReg (idEvLost (n / 32)) v).evRecord 97 0 0) :=
    ((State.setPool_event s p).trans (State.setReg_event _ v (evuReg_low (by simp only [idEvLost]; omega)
      (by simp only [idEvLost]; omega)))).trans (State.evRecord_event _ 0 0 (by omega))
  exact EventEffect.ite ((h1 _ _).trans (State.evRise_event _ 97)) (h1 _ _)

/-! ### Records at the NVM port -/

theorem State.nvmSubmit_event (s : State) (j : NvmJob) : EventEffect s (s.nvmSubmit j) := by
  unfold State.nvmSubmit
  split
  · exact EventEffect.refl s
  dsimp only
  split <;> exact ⟨rfl, rfl, fun _ _ => rfl, fun _ _ => rfl, fun _ _ => rfl, fun _ _ => rfl, rfl⟩

theorem State.nvmRecord_event (s : State) (page : Nat) (b : List Byte) : EventEffect s (s.nvmRecord page b) := by
  unfold State.nvmRecord
  split
  · exact ⟨rfl, rfl, fun _ _ => rfl, fun _ h => State.ctr_addCtr_ne s 1 h, fun _ _ => rfl, fun _ _ => rfl, rfl⟩
  · exact State.nvmSubmit_event s _

theorem State.logWrite_event (s : State) (k : Nat) (d : List Byte) : EventEffect s (s.logWrite k d) := State.nvmRecord_event s _ _

theorem State.ctrWrite_event (s : State) (k v : Nat) (a d : List Byte) : EventEffect s (s.ctrWrite k v a d) :=
  State.nvmRecord_event s _ _

theorem State.cntVal_setCnt_ne (s : State) {k j : Nat} (v : Nat) (h : j ≠ k) : (s.setCnt k v).cntVal j = s.cntVal j := by
  unfold State.setCnt
  split
  · by_cases hj : j < 8
    · simp only [State.cntVal, dif_pos hj]
      exact Vector.getElem_set_ne _ _ (fun e => h e.symm)
    · simp only [State.cntVal, dif_neg hj]
  · rfl

theorem State.cntVal_setCnt_same (s : State) {k : Nat} (v : Nat) (h : k < 8) : (s.setCnt k v).cntVal k = v := by
  simp only [State.setCnt, State.cntVal, dif_pos h]
  exact Vector.getElem_set_self _

/-- Advancing the counter of fatal events. -/
theorem State.ctrBump_event (s : State) (d : List Byte) : EventEffect s (s.ctrBump 6 d) := by
  unfold State.ctrBump
  refine EventEffect.trans (t := s.setCnt 6 (s.cntVal 6 + 1)) ?_ (State.ctrWrite_event _ _ _ _ _)
  exact ⟨rfl, rfl, fun _ _ => rfl, fun _ _ => rfl, fun _ _ => rfl, fun _ h => State.cntVal_setCnt_ne s _ h, rfl⟩

theorem State.drainInbox_event (s : State) : EventEffect s s.drainInbox := by
  unfold State.drainInbox
  split
  · dsimp only
    have h0 : EventEffect s { s with evu := { s.evu with inbox := [] } } :=
      ⟨rfl, rfl, fun _ _ => rfl, fun _ _ => rfl, fun _ _ => rfl, fun _ _ => rfl, rfl⟩
    generalize s.evu.inbox.filter fatalSource = l
    generalize { s with evu := { s.evu with inbox := [] } } = t at h0 ⊢
    induction l generalizing t with
    | nil => exact h0
    | cons n l ih => exact ih _ (h0.trans ((State.ctrBump_event t _).trans (State.logWrite_event _ _ _)))
  · exact EventEffect.refl s

/-- All that raising an event can do. -/
theorem State.raise_event (s : State) (n : Nat) (lo hi : Word) : EventEffect s (s.raise n lo hi) := by
  unfold State.raise
  split
  · exact EventEffect.refl s
  · rename_i h
    have hn : n < 576 := severity_bound (by
      cases hs : (severity? n).isNone
      · rfl
      · simp [hs] at h)
    split
    · refine EventEffect.trans ?_ (State.drainInbox_event _)
      unfold State.evPulse
      dsimp only
      split
      · refine (State.evRecord_event s lo hi hn).trans ((State.evRise_event _ n).trans ?_)
        split
        · exact State.queueMsg_event _ hn
        · exact EventEffect.refl _
      · exact State.evRecord_event s lo hi hn
    · split
      · exact ⟨rfl, rfl, fun _ _ => rfl, fun _ _ => rfl, fun _ _ => rfl, fun _ _ => rfl, rfl⟩
      · exact EventEffect.refl s

theorem State.raiseN_event (s : State) (n lo hi : Nat) : EventEffect s (s.raiseN n lo hi) := State.raise_event s n _ _

/-! ### Bytes of memory -/

theorem memWrite_wf {m : List Host.Cell} (h : mapWf dram0 m = true) (a : Nat) (bs : List Byte) : mapWf dram0 (memWrite m a bs) = true := by
  induction bs generalizing m a with
  | nil => exact h
  | cons b bs ih => exact ih (mapWf_mapSet h a b) (a + 1)

/-- A byte outside the stored range reads as before. -/
theorem memWrite_outside (m : List Host.Cell) {a i : Nat} (bs : List Byte) (h : i < a ∨ a + bs.length ≤ i) :
    mapGet dram0 (memWrite m a bs) i = mapGet dram0 m i := by
  induction bs generalizing m a with
  | nil => rfl
  | cons b bs ih =>
    simp only [List.length_cons] at h
    rw [memWrite, ih _ (by omega), mapGet_mapSet_ne m b (by omega)]

/-- A stored byte reads as stored. -/
theorem memWrite_inside {m : List Host.Cell} (hw : mapWf dram0 m = true) {a i : Nat} {bs : List Byte} (h : i < bs.length) :
    mapGet dram0 (memWrite m a bs) (a + i) = bs[i] := by
  induction bs generalizing m a i with
  | nil => simp at h
  | cons b bs ih =>
    cases i with
    | zero =>
      rw [memWrite, memWrite_outside _ bs (by omega)]
      exact mapGet_mapSet_same hw a b
    | succ i =>
      have := ih (mapWf_mapSet hw a b) (a := a + 1) (i := i) (by simpa using h)
      simp only [memWrite, List.getElem_cons_succ]
      rw [← this]
      congr 1
      omega

theorem ringWrite_wf {m : List Host.Cell} (h : mapWf ring0 m = true) (a : Nat) (bs : List Byte) : mapWf ring0 (ringWrite m a bs) = true := by
  induction bs generalizing m a with
  | nil => exact h
  | cons b bs ih => exact ih (mapWf_mapSet h a b) (a + 1)

theorem State.dramByte_dramWrite_outside (s : State) {a i : Nat} (bs : List Byte) (h : i < a ∨ a + bs.length ≤ i) :
    (s.dramWrite a bs).dramByte i = s.dramByte i := memWrite_outside _ bs h

theorem State.dramByte_dramWrite_inside {s : State} (hw : mapWf dram0 s.dmc.mem = true) {a i : Nat} {bs : List Byte} (h : i < bs.length) :
    (s.dramWrite a bs).dramByte (a + i) = bs[i] := memWrite_inside hw h

/-- The canonical form's parts. -/
theorem State.canonical_iff (s : State) : s.canonical = true ↔
    s.regs.canonical = true ∧ s.dmc.canonical = true ∧ mapWf nvmByte0 s.nvm.bytes = true ∧ mapWf nvmPage0 s.nvm.pages = true ∧
    mapWf ring0 s.dk.image = true ∧ mapWf dram0 s.pmu.aonSram = true ∧ mapWf (fun _ => 0) s.cal.wear = true ∧
    (∀ e ∈ s.easels.toList, e.canonical = true) ∧ ∀ y ∈ s.trays.toList, mapWf ring0 y.cmdRing = true ∧ mapWf ring0 y.respRing = true := by
  simp only [State.canonical, Bool.and_eq_true, List.all_eq_true, and_assoc]

/-- The parts of an Easel's canonical form. -/
theorem Easel.canonical_iff (e : Easel) : e.canonical = true ↔
    mapWf (fun _ => rgba0) e.buf = true ∧ mapWf (fun _ => 0) e.outw = true ∧ mapSorted none e.pfsNew = true ∧
    mapWf (fun _ => 0) e.hist = true := by
  simp only [Easel.canonical, Bool.and_eq_true, and_assoc]

/-- The parts of the registers' canonical form. -/
theorem RegFile.canonical_iff (r : RegFile) : r.canonical = true ↔
    mapWf resetWord r.held = true ∧ mapWf (fun _ => 0) r.ctrs = true ∧ mapWf (fun _ => 0) r.hold = true ∧
    mapWf (fun _ => 0) r.live = true ∧ mapWf (fun _ => 0) r.clock.before = true ∧ mapSorted none r.staged = true := by
  simp only [RegFile.canonical, Bool.and_eq_true, and_assoc]

/-- The parts of the memory controllers' canonical form. -/
theorem Dmc.canonical_iff (d : Dmc) : d.canonical = true ↔
    mapWf dram0 d.mem = true ∧ mapSorted none d.poison = true ∧ mapSorted none d.upset = true ∧ mapSorted none d.healed = true ∧
    mapWf (fun _ => 0) d.debt = true ∧ mapWf (fun _ => d.refFrom) d.refT = true ∧ ∀ x ∈ d.pcs.toList, mapSorted none x.rows = true := by
  simp only [Dmc.canonical, Bool.and_eq_true, List.all_eq_true, and_assoc]

end Sys2Proof.Machine
end

