-- ==== Sys2Proof/Laws/Dram.lean ====
section
/-!
SUPPORT. What the accesses of a row's own data move can do (Machine/Dram.lean): `State.access`, `State.store` and `State.putResult` have a
DramEffect, whatever beats they meet, and only the bytes that they store change.
-/
namespace Sys2Proof.Machine

/-! ### The relation -/

theorem DramEffect.refl (s : State) : DramEffect s s where
  rest := rfl
  maps := rfl
  reg := fun _ _ _ => rfl
  ctr := fun _ _ _ => rfl
  pool := fun _ _ _ => rfl
  flight := fun _ _ => rfl
  poison := fun _ h => .inl h
  upset := fun _ h => h
  cnt := fun _ _ => rfl
  nvm := rfl

theorem DramEffect.trans {s t u : State} (h : DramEffect s t) (k : DramEffect t u) : DramEffect s u where
  rest := by rw [k.rest, h.rest]
  maps := by rw [k.maps, h.maps]
  reg := fun i h1 h2 => (k.reg i h1 h2).trans (h.reg i h1 h2)
  ctr := fun i h1 h2 => (k.ctr i h1 h2).trans (h.ctr i h1 h2)
  pool := fun i h1 h2 => (k.pool i h1 h2).trans (h.pool i h1 h2)
  flight := fun i hi => (k.flight i hi).trans (h.flight i hi)
  poison := fun b hb => (k.poison b hb).elim (h.poison b) fun hu => .inr (h.upset _ hu)
  upset := fun e he => h.upset e (k.upset e he)
  cnt := fun i hi => (k.cnt i hi).trans (h.cnt i hi)
  nvm := by rw [k.nvm, h.nvm]

/-- An event's effect is one that an access may have. -/
theorem EventEffect.dram {s t : State} (h : EventEffect s t) : DramEffect s t := by
  have hd : t.dmc = s.dmc := by rw [h.rest]
  have hf : t.fresh = s.fresh := by rw [h.rest]
  have hc : t.caches = s.caches := by rw [h.rest]
  exact {
    rest := by rw [hd, hf, hc]; exact h.rest
    maps := by
      have h1 : t.regs.live = s.regs.live := by rw [h.maps]
      have h2 : t.regs.clock = s.regs.clock := by rw [h.maps]
      rw [h1, h2]; exact h.maps
    reg := fun i h1 _ => h.reg i h1
    ctr := fun i h1 _ => h.ctr i h1
    pool := fun k h1 _ => h.pool k h1
    flight := fun k h1 => by rw [h.pool k h1]
    poison := fun b hb => by rw [State.poisoned, hd] at hb; exact .inl hb
    upset := fun e he => by rwa [hd] at he
    cnt := h.cnt
    nvm := h.nvm }

/-! ### Its steps -/

theorem State.setReg_dram (s : State) {id : Nat} (v : Word) (h : errReg id = true) : DramEffect s (s.setReg id v) :=
  { DramEffect.refl s with
    rest := rfl
    maps := rfl
    reg := fun i _ h2 => State.reg_setReg_ne s v (by rintro rfl; simp [h] at h2) }

theorem State.addUe_dram (s : State) {d : Nat} (n : Nat) (h : d < 32) : DramEffect s (s.addCtr (idDcUe d) n) :=
  { DramEffect.refl s with
    rest := rfl
    maps := rfl
    ctr := fun _ _ h2 => State.ctr_addCtr_ne s n (h2 d h).1 }

theorem State.addCe_dram (s : State) {d : Nat} (n : Nat) (h : d < 32) : DramEffect s (s.addCtr (idDcCe d) n) :=
  { DramEffect.refl s with
    rest := rfl
    maps := rfl
    ctr := fun _ _ h2 => State.ctr_addCtr_ne s n (h2 d h).2 }

theorem State.countLive_dram (s : State) (id n : Nat) (m : Bool) : DramEffect s (s.countLive id n m) :=
  { DramEffect.refl s with rest := rfl, maps := rfl }

theorem State.setMem_dram (s : State) (m : List Host.Cell) : DramEffect s { s with dmc := { s.dmc with mem := m } } :=
  { DramEffect.refl s with rest := rfl }

theorem State.uncache_dram (s : State) (p : Nat → Bool) : DramEffect s (s.uncache p) := { DramEffect.refl s with rest := rfl }

theorem dramPc_half (a : Nat) : dramPc a / 2 < 32 := by
  have h : dramPc a < 2 ^ 6 := Nat.xor_lt_two_pow (Nat.mod_lt _ (by decide)) (Nat.mod_lt _ (by decide))
  omega

theorem State.logErr_dram (s : State) (a : Nat) (ue scrub : Bool) : DramEffect s (s.logErr a ue scrub) := by
  have h := dramPc_half a
  have e {n : Nat} (h1 : 0x1400 ≤ n) (h2 : n < 0x1600) : errReg n = true := by simp [errReg, h1, h2]
  unfold State.logErr
  refine ((State.setReg_dram s _ (e ?_ ?_)).trans (State.setReg_dram _ _ (e ?_ ?_))).trans (State.setReg_dram _ _ (e ?_ ?_)) <;>
    simp only [idErrInfo, idErrAddrLo, idErrAddrHi] <;> omega

/-- A listed key is found. -/
theorem mapFind_mem {α : Type} {m : List (Nat × α)} {e : Nat × α} (h : e ∈ m) : (mapFind m e.1).isSome = true := by
  induction m with
  | nil => simp at h
  | cons d m ih =>
    by_cases hd : d.1 = e.1
    · simp [mapFind, hd]
    · rcases List.mem_cons.mp h with rfl | h
      · exact absurd rfl hd
      · simpa [mapFind, hd] using ih h

/-- A value that is found is listed. -/
theorem mem_of_mapFind {α : Type} {m : List (Nat × α)} {k : Nat} {v : α} (h : mapFind m k = some v) : (k, v) ∈ m := by
  induction m with
  | nil => simp [mapFind] at h
  | cons d m ih =>
    by_cases hd : d.1 = k
    · obtain rfl : d.2 = v := by simpa [mapFind, hd] using h
      subst hd
      exact List.mem_cons_self ..
    · exact List.mem_cons_of_mem _ (ih (by simpa [mapFind, hd] using h))

theorem mapFind_filter {α : Type} {m : List (Nat × α)} {p : Nat × α → Bool} {b : Nat} (h : (mapFind (m.filter p) b).isSome = true) :
    (mapFind m b).isSome = true := by
  induction m with
  | nil => simpa using h
  | cons d m ih =>
    by_cases hd : d.1 = b
    · simp [mapFind, hd]
    · by_cases hp : p d = true
      · rw [List.filter_cons_of_pos hp] at h
        simpa [mapFind, hd] using ih (by simpa [mapFind, hd] using h)
      · rw [List.filter_cons_of_neg hp] at h
        simpa [mapFind, hd] using ih h

/-- Beats written whole are no longer wrong. -/
theorem State.wholeBeats_dram (s : State) (p : Nat → Bool) : DramEffect s (s.wholeBeats p) :=
  { DramEffect.refl s with
    rest := rfl
    poison := fun _ hb => .inl (mapFind_filter hb)
    upset := fun _ he => (List.mem_filter.mp he).1 }

theorem State.ceRaised_dram (s : State) (m : BitVec 32) : DramEffect s { s with dmc := { s.dmc with ceRaised := m } } :=
  { DramEffect.refl s with rest := rfl }

theorem State.dcCe_dram (s : State) (a : Nat) (scrub : Bool) : DramEffect s (s.dcCe a scrub) := by
  have h := (State.logErr_dram s a false scrub).trans (State.addCe_dram (s.logErr a false scrub) 1 (dramPc_half a))
  unfold State.dcCe
  dsimp only
  split
  · exact h
  · exact (h.trans (State.ceRaised_dram _ _)).trans (State.raiseN_event _ _ _ _).dram

/-- What an uncorrectable error leaves: its beat is poisoned, and no other becomes so. -/
theorem State.dcUe_dram (s : State) (a : Nat) (scrub : Bool)
    (h : s.poisoned (a / 8) = true ∨ (a / 8, true) ∈ s.dmc.upset) : DramEffect s (s.dcUe a scrub) := by
  unfold State.dcUe
  dsimp only
  refine (DramEffect.trans ?_ ((State.logErr_dram _ _ _ _).trans (State.addUe_dram _ 1 (dramPc_half _)))).trans (State.raiseN_event _ _ _ _).dram
  exact { DramEffect.refl s with
    rest := rfl
    poison := fun k hk => by
      by_cases e : k = a / 8
      · exact e ▸ h
      · exact .inl (by simpa [State.poisoned, mapFind_mapPut_ne _ () e] using hk) }

/-- A read of a beat finds what is wrong with it (R329, R330). -/
theorem State.beatErr_dram (s : State) (b : Nat) (scrub : Bool) : DramEffect s (s.beatErr b scrub) := by
  have hb : 8 * b / 8 = b := by omega
  have del : DramEffect s { s with dmc := { s.dmc with upset := mapDel s.dmc.upset b } } :=
    { DramEffect.refl s with rest := rfl, upset := fun _ he => mem_mapDel he }
  unfold State.beatErr
  dsimp only
  split
  · rename_i hp
    exact del.trans (State.dcUe_dram _ _ _ (.inl (by rw [hb]; exact hp)))
  · split
    · rename_i hu
      unfold State.dcUe
      dsimp only
      refine (DramEffect.trans (t := { s with dmc := { s.dmc with
        upset := mapDel s.dmc.upset b, poison := mapPut s.dmc.poison (8 * b / 8) ()
        healed := if (mapFind s.dmc.poison (8 * b / 8)).isSome then s.dmc.healed
          else s.dmc.healed.filter fun e => e.1 / 64 != 8 * b / 64 } }) ?_
        ((State.logErr_dram _ _ _ _).trans (State.addUe_dram _ 1 (dramPc_half _)))).trans (State.raiseN_event _ _ _ _).dram
      exact { DramEffect.refl s with
        rest := rfl
        upset := fun _ he => mem_mapDel he
        poison := fun k hk => by
          by_cases e : k = b
          · exact .inr (e ▸ mem_of_mapFind hu)
          · exact .inl (by simpa [State.poisoned, hb, mapFind_mapPut_ne _ () e] using hk) }
    · exact del.trans (State.dcCe_dram _ _ _)
    · exact DramEffect.refl s

/-- A read within a row. -/
theorem State.readErr_dram (s : State) (a n : Nat) (scrub : Bool) (counts : Nat → Bool) : DramEffect s (s.readErr a n scrub counts) := by
  unfold State.readErr
  generalize s.badBeats a n = l
  induction l generalizing s with
  | nil => exact DramEffect.refl s
  | cons e l ih =>
    rw [List.foldl_cons]
    refine DramEffect.trans ?_ (ih _)
    split
    · exact State.beatErr_dram s _ _
    · exact DramEffect.refl s

/-! ### Tokens -/

theorem State.issue_frame (s : State) (k n : Nat) : s.issue k n = { s with pools := (s.issue k n).pools } := State.setPool_frame s k _
theorem State.giveBack_frame (s : State) (k n : Nat) : s.giveBack k n = { s with pools := (s.giveBack k n).pools } := State.setPool_frame s k _

theorem State.pool_issue_ne (s : State) {k j : Nat} (n : Nat) (h : j ≠ k) : (s.issue k n).pool j = s.pool j := State.pool_setPool_ne s _ h
theorem State.pool_giveBack_ne (s : State) {k j : Nat} (n : Nat) (h : j ≠ k) : (s.giveBack k n).pool j = s.pool j := State.pool_setPool_ne s _ h

theorem State.flight_issue (s : State) {k : Nat} (n : Nat) (h : k < 45) :
    ((s.issue k n).pool k).flight = ((s.pool k).flight + n) % 2 ^ 64 := by
  rw [State.issue, State.pool_setPool_same _ _ h]
  simp only [Pool.flight]
  omega

theorem State.flight_giveBack (s : State) {k : Nat} (n : Nat) (h : k < 45) :
    ((s.giveBack k n).pool k).flight = ((s.pool k).flight - n) % 2 ^ 64 := by
  rw [State.giveBack, State.pool_setPool_same _ _ h]
  simp only [Pool.flight]
  omega

theorem pools_trans {s t u : State} (h : t = { s with pools := t.pools }) (k : u = { t with pools := u.pools }) :
    u = { s with pools := u.pools } := by rw [k, h]

/-- A change of the pools alone. -/
theorem DramEffect.ofPools {s t : State} (h : t = { s with pools := t.pools }) (hp : ∀ k, k < 18 ∨ 23 < k → t.pool k = s.pool k)
    (hi : ∀ k, (t.pool k).flight = (s.pool k).flight) : DramEffect s t := by
  have hr : t.regs = s.regs := by rw [h]
  have hd : t.dmc = s.dmc := by rw [h]
  have hc : t.cnt = s.cnt := by rw [h]
  have hn : t.nvm = s.nvm := by rw [h]
  have he : t.evu = s.evu := by rw [h]
  have hf : t.fresh = s.fresh := by rw [h]
  have hca : t.caches = s.caches := by rw [h]
  exact {
    rest := by rw [hr, hd, hc, hn, he, hf, hca]; exact h
    maps := by rw [hr]
    reg := fun _ _ _ => by simp only [State.reg, hr]
    ctr := fun _ _ _ => by simp only [State.ctr, hr]
    pool := fun k _ h1 => hp k h1
    flight := fun k _ => hi k
    poison := fun b hb => by rw [State.poisoned, hd] at hb; exact .inl hb
    upset := fun e he => by rwa [hd] at he
    cnt := fun _ _ => by simp only [State.cntVal, hc]
    nvm := by rw [hn] }

theorem State.turn_frame (s : State) (k u : Nat) : (((s.issue k u).issue 23 u).giveBack k u).giveBack 23 u =
    { s with pools := ((((s.issue k u).issue 23 u).giveBack k u).giveBack 23 u).pools } :=
  pools_trans (pools_trans (pools_trans (State.issue_frame ..) (State.issue_frame ..)) (State.giveBack_frame ..)) (State.giveBack_frame ..)

/-- Units of two pools that are issued and given back at once leave as many in flight as there were. -/
theorem State.turn_dram (s : State) {k : Nat} (u : Nat) (h1 : 18 ≤ k) (h2 : k < 23) :
    DramEffect s ((((s.issue k u).issue 23 u).giveBack k u).giveBack 23 u) := by
  have hk : k ≠ 23 := by omega
  have out (j : Nat) (a : j ≠ k) (b : j ≠ 23) : ((((s.issue k u).issue 23 u).giveBack k u).giveBack 23 u).pool j = s.pool j := by
    rw [State.pool_giveBack_ne _ u b, State.pool_giveBack_ne _ u a, State.pool_issue_ne _ u b, State.pool_issue_ne _ u a]
  have small (p : Pool) : 0 ≤ p.flight ∧ p.flight < 2 ^ 64 := by simp only [Pool.flight]; omega
  refine DramEffect.ofPools (State.turn_frame s k u) (fun j hj => out j (by omega) (by omega)) fun j => ?_
  have hs := small (s.pool j)
  by_cases a : j = k
  · rw [a] at hs ⊢
    rw [State.pool_giveBack_ne _ u hk, State.flight_giveBack _ u (by omega), State.pool_issue_ne _ u hk, State.flight_issue _ u (by omega)]
    omega
  · by_cases b : j = 23
    · rw [b] at hs ⊢
      rw [State.flight_giveBack _ u (by decide), State.pool_giveBack_ne _ u hk.symm, State.flight_issue _ u (by decide),
        State.pool_issue_ne _ u hk.symm]
      omega
    · rw [out j a b]

theorem State.sids_dram (s : State) (l : List Nat) : DramEffect s (l.foldl (fun s k => (s.wakeSid k).touchSid k) s) := by
  induction l generalizing s with
  | nil => exact DramEffect.refl s
  | cons k l ih =>
    rw [List.foldl_cons]
    refine DramEffect.trans ?_ (ih _)
    unfold State.touchSid
    split <;> exact { DramEffect.refl s with rest := rfl }

theorem State.moveWaits_dram (s : State) (c : DClass) (u : Nat) : DramEffect s (s.moveWaits c u) := by
  unfold State.moveWaits
  split
  · exact DramEffect.refl s
  · exact (DramEffect.trans (t := { s with fresh := s.fresh + 2 }) { DramEffect.refl s with rest := rfl }
      (State.countLive_dram _ _ _ _)).trans (State.countLive_dram _ _ _ _)

/-! ### Accesses -/

theorem State.charge_dram (s : State) (w : DClient) (a n counted : Nat) : DramEffect s (s.charge w a n counted) := by
  have hc : classIx (s.classOf w) ≤ 4 := by cases s.classOf w <;> decide
  unfold State.charge
  dsimp only
  split
  · exact DramEffect.refl s
  · exact (((State.turn_dram s _ (by omega) (by omega)).trans (State.sids_dram _ _)).trans (State.moveWaits_dram _ _ _)).trans
      (State.countLive_dram _ _ _ _)

theorem State.access_dram (s : State) (w : DClient) (a n : Nat) : DramEffect s (s.access w a n) :=
  (State.charge_dram s w a n n).trans (State.readErr_dram _ _ _ _ _)

theorem State.putReq_dram (s : State) (r : DramReq) : DramEffect s (s.putReq r) := by
  unfold State.putReq
  dsimp only
  split
  · exact ((State.uncache_dram s _).trans (State.setMem_dram _ _)).trans (State.wholeBeats_dram _ _)
  · exact (State.setMem_dram s _).trans (State.wholeBeats_dram _ _)

theorem State.storeSome_dram (s : State) (w : DClient) (a : Nat) (bs : List (Option Byte)) : DramEffect s (s.storeSome w a bs) :=
  ((State.charge_dram s w _ _ _).trans (State.readErr_dram _ _ _ _ _)).trans (State.putReq_dram _ _)

theorem State.store_dram (s : State) (w : DClient) (a : Nat) (bs : List Byte) : DramEffect s (s.store w a bs) := State.storeSome_dram s w a _

theorem State.putResult_dram (s : State) (a : Nat) (bs : List Byte) : DramEffect s (s.putResult a bs) := by
  unfold State.putResult
  split
  · exact DramEffect.refl s
  · exact State.store_dram s _ _ _

/-! ### Bytes -/

theorem EventEffect.dmc {s t : State} (h : EventEffect s t) : t.dmc = s.dmc := by rw [h.rest]

theorem State.logErr_dmc (s : State) (a : Nat) (ue scrub : Bool) : (s.logErr a ue scrub).dmc = s.dmc := by
  unfold State.logErr
  rw [State.setReg_dmc, State.setReg_dmc, State.setReg_dmc]

theorem State.beatErr_mem (s : State) (b : Nat) (scrub : Bool) : (s.beatErr b scrub).dmc.mem = s.dmc.mem := by
  have ue (s : State) (a : Nat) : (s.dcUe a scrub).dmc.mem = s.dmc.mem := by
    unfold State.dcUe
    dsimp only
    rw [(State.raiseN_event _ _ _ _).dmc, State.addCtr_dmc, State.logErr_dmc]
  have ce (s : State) (a : Nat) : (s.dcCe a scrub).dmc.mem = s.dmc.mem := by
    unfold State.dcCe
    dsimp only
    split
    · rw [State.addCtr_dmc, State.logErr_dmc]
    · rw [(State.raiseN_event _ _ _ _).dmc, State.addCtr_dmc, State.logErr_dmc]
  unfold State.beatErr
  dsimp only
  split
  · exact ue _ _
  · split
    · exact ue _ _
    · exact ce _ _
    · rfl

/-- A read changes no byte. -/
theorem State.readErr_mem (s : State) (a n : Nat) (scrub : Bool) (counts : Nat → Bool) :
    (s.readErr a n scrub counts).dmc.mem = s.dmc.mem := by
  unfold State.readErr
  generalize s.badBeats a n = l
  induction l generalizing s with
  | nil => rfl
  | cons e l ih =>
    rw [List.foldl_cons, ih]
    split
    · exact State.beatErr_mem s _ _
    · rfl

theorem State.sids_mem (s : State) (l : List Nat) : (l.foldl (fun s k => (s.wakeSid k).touchSid k) s).dmc.mem = s.dmc.mem := by
  induction l generalizing s with
  | nil => rfl
  | cons k l ih =>
    rw [List.foldl_cons, ih]
    unfold State.touchSid
    split <;> rfl

theorem State.charge_mem (s : State) (w : DClient) (a n counted : Nat) : (s.charge w a n counted).dmc.mem = s.dmc.mem := by
  unfold State.charge
  dsimp only
  split
  · rfl
  · unfold State.moveWaits
    split
    · exact (State.sids_mem _ _).trans (by rw [State.turn_frame])
    · exact (State.sids_mem _ _).trans (by rw [State.turn_frame])

theorem State.access_mem (s : State) (w : DClient) (a n : Nat) : (s.access w a n).dmc.mem = s.dmc.mem := by
  rw [State.access, State.readErr_mem, State.charge_mem]

theorem memPut_outside (m : List Host.Cell) {a i : Nat} (bs : List (Option Byte)) (h : i < a ∨ a + bs.length ≤ i) :
    mapGet dram0 (memPut m a bs) i = mapGet dram0 m i := by
  induction bs generalizing m a with
  | nil => rfl
  | cons b bs ih =>
    simp only [List.length_cons] at h
    cases b with
    | none => exact ih m (by omega)
    | some b => rw [memPut, ih _ (by omega), mapGet_mapSet_ne m b (by omega)]

theorem reqBytes_length (r : DramReq) : r.bytes.length = r.len := by
  rw [DramReq.bytes, List.length_map, List.length_range]

/-- A byte outside a request's reads as before it. -/
theorem State.dramByte_putReq_outside (s : State) (r : DramReq) {i : Nat} (h : i < r.addr ∨ r.addr + r.len ≤ i) :
    (s.putReq r).dramByte i = s.dramByte i := by
  have hl := reqBytes_length r
  unfold State.putReq
  dsimp only
  split <;> exact memPut_outside _ _ (by omega)

/-- A byte outside a store of a row's own data reads as before. -/
theorem State.dramByte_store_outside (s : State) (w : DClient) {a i : Nat} (bs : List Byte) (h : i < a ∨ a + bs.length ≤ i) :
    (s.store w a bs).dramByte i = s.dramByte i := by
  unfold State.store State.storeSome
  dsimp only
  rw [State.dramByte_putReq_outside _ _ (by simpa using h)]
  unfold State.dramByte
  rw [State.readErr_mem, State.charge_mem]

theorem State.dramByte_putResult_outside (s : State) {a i : Nat} (bs : List Byte) (h : i < a ∨ a + bs.length ≤ i) :
    (s.putResult a bs).dramByte i = s.dramByte i := by
  unfold State.putResult
  split
  · rfl
  · exact State.dramByte_store_outside s _ bs h

end Sys2Proof.Machine
end

