-- ==== Sys2Proof/Machine/Pins.lean ====
section
/-!
DEFINITION. The output pins (R283, R445, R491, R507, R561): what each is driven to. No command reads a pin back.
-/
namespace Sys2Proof.Machine

/-- The outputs of R491 and R561. -/
inductive Pin where
  | pwrEn (i : Fin 6)
  | pnlEn (i : Fin 4)
  | sbCk (q : Fin 4)
  | sbDa (q : Fin 4)
  | gsp (q : Fin 4)
  | gck (q i : Fin 4)
  | goe (q : Fin 4)
  | blSck
  | blMosi
  | blCsN
  | timeOut (n : Fin 4)
  | rstReqN
  | lane (q : Fin 4) (n : Fin 12)
  | ptpLane
deriving DecidableEq, Repr

/-- What a pin shows: a driven level; high impedance, with an internal pull where R561 lists one, or with the bus keeper's last level; and of a
lane whether it is in electrical idle. -/
inductive Level where
  | driven (high : Bool)
  | floating
  | pulledDown
  | pulledUp
  | kept
  | idle
  | sending
deriving DecidableEq, Repr

/-- A pin that nothing drives: before the AON power-on reset, and in LATENT (R507, R561). -/
def Pin.undriven (p : Pin) : Level :=
  match p with
  | .pwrEn _ => .pulledDown
  | .goe _ => .pulledUp
  | .blCsN => .pulledUp
  | .sbDa _ => .kept
  | .lane _ _ => .idle
  | .ptpLane => .idle
  | _ => .floating

/-- A bit of bytes that are sent most significant bit first. -/
def msbBit (l : List Byte) (k : Nat) : Bool := (byteAt l (k / 8)).getLsbD (7 - k % 8)

/-! ### Sideband (R273) -/

/-- The transaction that bus q runs now: since when, in units of 4 ns, and its request. -/
def State.sbNow (s : State) (q : Fin 4) : Option (Nat × List Byte) :=
  let p := s.port q
  match p.sbSent with
  | [] => none
  | r :: _ => if p.sbAt ≤ s.now ∧ (p.sb ≠ [] ∨ s.now < p.sbFree) then some (s.now - p.sbAt, r) else none

/-- CK of bus q: 25 MHz during a transaction, low else; DA changes as CK falls (log entry 156). -/
def State.sbCkPin (s : State) (q : Fin 4) : Bool :=
  match s.sbNow q with
  | none => false
  | some (t, _) => decide (5 ≤ t % 10)

/-- DA of bus q: the request, most significant bit first; then the keeper holds the level while a chip may answer. The level in the idle
cycles and between transactions is free (log entry 156). -/
def State.sbDaPin (s : State) (q : Fin 4) : Level :=
  match s.sbNow q with
  | none => .driven (Config.pinLevel q.val s.now)
  | some (t, r) =>
    if t < 80 * r.length then .driven (msbBit r (t / 10))
    else if (s.port q).sb ≠ [] then .kept
    else .driven (Config.pinLevel q.val s.now)

/-! ### Backlight (R284) -/

/-- The bit of the backlight frame that is being sent, and whether its SCK has risen (SPI mode 0); none outside a frame. -/
def State.blBit (s : State) : Option (Bool × Bool) :=
  match s.panel.blFrame with
  | none => none
  | some f =>
    let half := s.rf idBlCtrl 11 8 + 1
    let c := easelCyc (s.now - s.panel.blStart)
    if s.blWhole f then none else some (msbBit f (c / (2 * half)), decide (half ≤ c % (2 * half)))

/-! ### All pins -/

/-- The level of a pin: what drives it, or its clamp while its domain is down (R491). -/
def State.pin (s : State) (p : Pin) : Level :=
  if !s.up dAon ∨ s.pmu.latentHeld then p.undriven
  else match p with
  | .pwrEn i => .driven (s.pmu.pwrEn.getLsbD i.val)
  | .pnlEn i => .driven (s.panel.en.getLsbD i.val)
  | .sbCk q => .driven (s.sbOn q && s.sbCkPin q)
  | .sbDa q => if s.sbOn q then s.sbDaPin q else .driven false
  | .gsp q => .driven (s.gspPin q)
  | .gck q i => .driven ((s.gckPins q).getLsbD i.val)
  | .goe q => .driven (s.goePin q)
  | .blSck => .driven (s.up dPl && (match s.blBit with | some b => b.2 | none => false))
  | .blMosi => .driven (s.up dPl && (match s.blBit with | some b => b.1 | none => false))
  | .blCsN => .driven (!s.up dPl || s.blBit.isNone)
  | .timeOut n => .driven (s.timeOutPin n)
  | .rstReqN => .driven (!s.up dCtrl || Config.pinLevel 4 s.now)
  | .lane q n => if s.up dPl ∧ (s.port q).clk.since.isSome ∧ n.val < (s.port q).clk.l then .sending else .idle
  | .ptpLane => if s.up dTime then .sending else .idle

end Sys2Proof.Machine
end

