-- ==== Sys2Proof/WellFormed.lean ====
section
/-!
DEFINITION. Which commands are well formed: the widths that the constructors of Instr do not fix themselves. A check refuses a
term that spells no command of the block.
-/
namespace Sys2Proof

open Machine

/-- A command entry has 64 bytes and its row's opcode (R379, R380, R403). -/
def Cmd.wf (c : Cmd) (op : Nat) : Bool := c.entry.length == 64 && c.opcode == op && decide (c.index < 65536)

/-- A header slot has 16 bytes (R358) and the data is no longer than 256 bytes (R357); the type code is the row's. PWR also takes
the malformed transactions whose type no row names (R371). -/
def Ist.wf (x : Ist) (ok : Nat → Bool) : Bool := x.hdr.length == 16 && ok (x.h 0 1 % 16) && decide (x.data.length ≤ 256)

/-- A register access names a register of the catalogue (R406, R413). -/
def regWf (id : Nat) : Bool := (findReg id).isSome

/-- Does a requester offer its requests one by one in DRAM_REQUEST (log entry 133)? The others enter or are charged in rows of their
own. -/
def DClient.offers (w : DClient) : Bool :=
  match w with
  | .easel _ | .fetch _ | .firmware | .shadow | .logging => true
  | .fixer | .host | .contact | .bracket => false

/-- A DRAM request is 32 to 512 bytes within one half of one row of the stack (R311), and a write names bytes of them and carries the data;
a YTC block has a 512-byte-aligned slot (R104). -/
def DramReq.wf (r : DramReq) : Bool :=
  decide (32 ≤ r.len ∧ r.addr % 512 + r.len ≤ 512 ∧ r.addr + r.len ≤ 2 ^ 35 ∧ r.mask < 2 ^ r.len) && r.who.offers && r.data.length == (if r.mask = 0 then 0 else r.len) &&
  (match r.block with
    | none => true
    | some b => b % 512 == 0)

/-- A frame's destination is a MAC or an IPv4 address (R432), and a Delay_Resp bears a port identity (R439). -/
def PtpFrame.wf (f : PtpFrame) : Bool :=
  (f.transport != 0 || f.dst.length == 6) && (f.transport != 1 || f.dst.length == 4) && (f.msgType != 9 || f.requester.length == 10)

/-- Is the instruction well formed? -/
def Instr.wf (i : Instr) : Bool :=
  match i with
  | .nop c => c.wf 0x0001
  | .identify c => c.wf 0x0002
  | .modeGet c => c.wf 0x0003
  | .modeSet c => c.wf 0x0004
  | .modeSwitchAtTick => true
  | .trayConfig c => c.wf 0x0005
  | .fwUpdate c => c.wf 0x0006
  | .domainReset c => c.wf 0x0007
  | .tickWait c => c.wf 0x0008
  | .paramGet c => c.wf 0x0101
  | .paramSet c => c.wf 0x0102
  | .paramInfo c => c.wf 0x0103
  | .paramSave c => c.wf 0x0104
  | .paramDefaults c => c.wf 0x0105
  | .commit c => c.wf 0x0201
  | .commitCancel c => c.wf 0x0202
  | .stageClear c => c.wf 0x0203
  | .expoQuery c => c.wf 0x0204
  | .admitTry c => c.wf 0x0205
  | .plateOpen c => c.wf 0x0301
  | .plateOpenDone _ => true
  | .plateSeal c => c.wf 0x0302
  | .plateInfo c => c.wf 0x0303
  | .ytcLoad c => c.wf 0x0304
  | .ppiLoad c => c.wf 0x0401
  | .refocusRead c => c.wf 0x0402
  | .bracketRun c => c.wf 0x0403
  | .bracketStatus c => c.wf 0x0404
  | .contactSubmit c => c.wf 0x0501
  | .contactStatus c => c.wf 0x0502
  | .panelOn c => c.wf 0x0601
  | .panelOff c => c.wf 0x0602
  | .plRetrain c => c.wf 0x0603
  | .sbCfgWrite c => c.wf 0x0604
  | .sbCfgRead c => c.wf 0x0605
  | .panelRetain c => c.wf 0x0606
  | .panelRelease c => c.wf 0x0607
  | .dramMap c => c.wf 0x0701
  | .dramScrub c => c.wf 0x0702
  | .timeGet c => c.wf 0x0801
  | .timeAdjust c => c.wf 0x0802
  | .ptpConfig c => c.wf 0x0803
  | .tsRead c => c.wf 0x0804
  | .timedOutput c => c.wf 0x0805
  | .thermalRead c => c.wf 0x0901
  | .throttleStatus c => c.wf 0x0902
  | .powerRead c => c.wf 0x0903
  | .nvmRead c => c.wf 0x0A01
  | .nvmWrite c => c.wf 0x0A02
  | .counterRead c => c.wf 0x0A03
  | .logRead c => c.wf 0x0A04
  | .servicePattern c => c.wf 0x0B01
  | .serviceCapture c => c.wf 0x0B02
  | .pwr x => x.wf fun t => t != 2 && t != 4 && t != 5
  | .apertureSlotTaken _ => true
  | .rd x => x.wf fun t => t == 2
  | .doorbell x => x.wf fun t => t == 4
  | .cret x => x.wf fun t => t == 5
  | .ucieCreditReturn _ => true
  | .ucieLinkUp _ _ _ _ vc2 vc3 => decide (vc2 < 65536 ∧ vc3 < 65536)
  | .ucieLinkDown _ => true
  | .ucieRetrain _ => true
  | .flitCrcFail _ => true
  | .ubConfigWindowExpire _ => true
  | .commandTaken => true
  | .responseWrite _ => true
  | .respRingFull _ => true
  | .heartbeat => true
  | .fwStall => true
  | .dkRestartWrite _ => true
  | .warmRestart => true
  | .registerWrite id _ _ => regWf id
  | .counterLoRead id => regWf id
  | .timebaseReadCapture _ => true
  | .tickRunSet => true
  | .tickRunClear => true
  | .rfcForceWrite => true
  | .timedOutputArm _ => true
  | .bootGo len => decide (len < 2 ^ 32)
  | .eventStatusClear g _ same => same.all fun p => p.src.val / 32 == g.val
  | .eventEnableWrite id _ => (decide (0x7401 ≤ id ∧ id < 0x7448) && id % 4 == 1) || decide (0x7500 ≤ id ∧ id < 0x7740)
  | .eventPulse _ => true
  | .eventMessageSend => true
  | .tickFire => true
  | .tickArrival => true
  | .ledgerCheckStrobe => true
  | .linePeriodStart _ => true
  | .lineSent _ => true
  | .skipList _ => true
  | .stripDispatch _ => true
  | .stripDelivered _ => true
  | .developerFetch _ _ _ => true
  | .dramRequest _ r => r.wf
  | .dramIssue _ _ => true
  | .dramRetire _ _ _ => true
  | .requestAged _ _ => true
  | .ageBound _ _ => true
  | .refreshInterval _ _ _ => true
  | .bankRefresh _ _ _ => true
  | .retrainPass _ _ => true
  | .sidPowerDown _ => true
  | .scrubRead _ => true
  | .odeccRead counts => counts.length == 8
  | .fixerCodeBlock _ _ => true
  | .fixerTokensGranted _ => true
  | .fixerStoreRetired _ => true
  | .contactJobStart _ => true
  | .contactJobComplete _ => true
  | .ctWaitExpired _ => true
  | .refocusRebuildDone => true
  | .plTrainStart _ => true
  | .plTrainTimeout _ => true
  | .sbPoll _ => true
  | .sbResponse _ bytes => decide (bytes.length ≤ 65540)
  | .sbTimeout _ => true
  | .retainFail _ chip => decide (chip < 32)
  | .blFrameStart _ => true
  | .panelUpRailStep => true
  | .pnlPgRise _ => true
  | .pgTimeout => true
  | .pgLost _ => true
  | .crackMeasure _ _ => true
  | .panelSafe _ => true
  | .panelSafeDischargeEnd => true
  | .panelRailDownStep => true
  | .ptpFrameRx fr => fr.wf
  | .ptpTxStamp _ _ => true
  | .tsEntryTimeout => true
  | .ptpSyncTimeout => true
  | .timedOutputEdge _ => true
  | .timedOutputWidthEnd _ => true
  | .strobeFire _ => true
  | .strobeWidthEnd _ => true
  | .thmUpdate meters _ _ => meters.length == 24
  | .throttleGraceEnd => true
  | .throttleCheck => true
  | .throttleLift => true
  | .thermalTrip => true
  | .tripPageWrite => true
  | .thermalRestart => true
  | .driveHistogramRead => true
  | .fieldMinute => true
  | .lBracketDone _ => true
  | .lBracketTargetTimeout => true
  | .bracketCountSave _ => true
  | .domainPowerUp _ _ => true
  | .domainPowerDown _ => true
  | .sleepRequest _ _ _ => true
  | .wake _ _ => true
  | .aonTimerExpire _ => true
  | .safelightRefresh => true
  | .brownout => true
  | .nvmPageWriteDone => true
  | .pllLossOfLock _ => true
  | .pllRelock _ _ => true
  | .relockTimeout _ => true
  | .coldReset => true
  | .aonPowerGood failedReads => decide (failedReads ≤ 3)
  | .pwrPgRise _ => true
  | .supplyFail _ => true
  | .supplyRetry => true
  | .fwImageVerified _ => true
  | .fwStart => true
  | .slowCommandDone c _ => c.entry.length == 64
  | .ptpLaneLockChange _ => true
  | .pnlPgFall _ => true
  | .pwrPgFall _ => true
  | .xtalPresent => true
  | .vauxLoss => true

end Sys2Proof
end

