-- ==== Sys2Proof/Tests/Slice0.lean ====
section
/-!
SUPPORT. Checks of the model. First the well-formedness checks, each with a term it refuses; then tests of single commands whose expected
results are worked out from the rules of the spec that each cites; then, for every statement of the certificate that has hypotheses, one
theorem `hyps_<statement>` that shows concrete states and operands meeting the hypotheses of each of its clauses, at the bounds of a range
where a clause has one.
-/
namespace Sys2Proof.Tests

open Sys2Proof Machine

-- One theorem at a time: run side by side, the evaluations below would need a thread and its stack for each.
set_option Elab.async false

/-! ### Helpers -/

/-- A command entry from its opcode, class and flag byte, target and payload; its tag is 7. -/
def entry (op cls target : Nat) (pay : List Byte) : List Byte :=
  padTo 64 (leBytes 2 op ++ leBytes 2 7 ++ leBytes 1 cls ++ leBytes 1 pay.length ++ leBytes 2 0 ++ leBytes 8 target ++ pay)

/-- A command of Tray 0. -/
def cmd (op cls : Nat) (pay : List Byte) : Cmd := ⟨0, entry op cls 0 pay, 0⟩

/-- Every domain has power and its clock, the firmware runs, and the mode is m. -/
def on (m : Mode) : State := { State.reset with
  pmu := { Pmu.reset with powered := 0xFFFFFF, clamped := 0, lock := 0x1FFFF, boot := .fwRunning, mode := m, pwrEn := 0x3F, pwrPg := 0x3F }
  dk := { Dk.reset with running := true } }

/-- The firmware has taken command c. -/
def taking (c : Cmd) (s : State) : State := { s with dk := { s.dk with taken := [c] } }

/-- Command c has started. -/
def started (c : Cmd) (s : State) : State := { s with dk := { s.dk with taken := [c], started := [c] } }

/-- The panel is ON. -/
def lit (s : State) : State := { s with panel := { s.panel with st := .on, en := 0xF, pg := 0xF, strobesHeld := false } }

def reg (id : Nat) (v : Word) (s : State) : State := s.setReg id v

/-- The memory runs at time n under a control word. -/
def dmcOn (n : Nat) (ctrl : Word) : State :=
  let s := (on .field).setReg idDmcCtrl ctrl
  { s with now := n, dmc := { s.dmc with state := .run } }

/-- A C8 flat plate of 64 by 64 texels: eight blocks. -/
def geom8 : Geom := ⟨0, 4, 64, 64, 1, 1, false⟩

/-- A buffer of that geometry at address 0 with n write credits. -/
def buf8 (n : Nat) : Buf := ⟨some geom8, 0, 4112, n, false, 0, []⟩

/-! ### Well-formedness -/

theorem test_wf_accepts : Instr.wf (.nop (cmd 1 0 [])) = true := by decide +kernel

/-- R379: an entry has 64 bytes. -/
theorem test_wf_refuses_short_entry : Instr.wf (.nop ⟨0, [], 0⟩) = false := by decide +kernel

/-- R376: an index has 16 bits. -/
theorem test_wf_refuses_index : Instr.wf (.nop { cmd 1 0 [] with index := 65536 }) = false := by decide +kernel

/-- R403: the opcode is the row's. -/
theorem test_wf_refuses_other_opcode : Instr.wf (.nop (cmd 2 0 [])) = false := by decide +kernel

/-- R358, R371: a header slot has 16 bytes and the row's type. -/
theorem test_wf_refuses_header : Instr.wf (.pwr ⟨0, [1], []⟩) = false ∧ Instr.wf (.rd ⟨0, List.replicate 16 1, []⟩) = false ∧
    Instr.wf (.rd ⟨0, 2 :: List.replicate 15 0, []⟩) = true ∧ Instr.wf (.doorbell ⟨0, List.replicate 16 1, []⟩) = false ∧
    Instr.wf (.cret ⟨0, List.replicate 16 1, []⟩) = false ∧ Instr.wf (.pwr ⟨0, 2 :: List.replicate 15 0, []⟩) = false := by decide +kernel

/-- R357: at most 256 bytes of data. -/
theorem test_wf_refuses_long_data : Instr.wf (.pwr ⟨0, 1 :: List.replicate 15 0, List.replicate 257 0⟩) = false := by decide +kernel

/-- R361: an advertisement has 16 bits. -/
theorem test_wf_refuses_advertisement : Instr.wf (.ucieLinkUp 0 0 false false 65536 1) = false := by decide +kernel

/-- R406: a register access names a register. -/
theorem test_wf_refuses_register : Instr.wf (.registerWrite 0xFFFF 0 0) = false ∧ Instr.wf (.counterLoRead 0xFFFF) = false := by decide +kernel

/-- R549: GO is a 32-bit word. -/
theorem test_wf_refuses_go : Instr.wf (.bootGo (2 ^ 32)) = false := by decide +kernel

/-- R417: a pulse in the same clock belongs to the group. -/
theorem test_wf_refuses_pulse_of_another_group : Instr.wf (.eventStatusClear 0 1 [⟨32, 0, 0⟩]) = false := by decide +kernel

/-- R408: EVU.ENABLE and EVU.CFG only. -/
theorem test_wf_refuses_event_register : Instr.wf (.eventEnableWrite 0x7400 0) = false := by decide +kernel

/-- R311: 32 to 512 bytes within half a row, a write of bytes of them, within the stack; R104: a block's slot is aligned; R33: the requester
offers its requests in this row. -/
theorem test_wf_refuses_dram_request : Instr.wf (.dramRequest 0 ⟨.firmware, 0, 16, 0, none, []⟩) = false ∧
    Instr.wf (.dramRequest 0 ⟨.firmware, 496, 32, 0, none, []⟩) = false ∧ Instr.wf (.dramRequest 0 ⟨.firmware, 2 ^ 35, 32, 0, none, []⟩) = false ∧
    Instr.wf (.dramRequest 0 ⟨.firmware, 0, 32, 2 ^ 32, none, List.replicate 32 0⟩) = false ∧
    Instr.wf (.dramRequest 0 ⟨.fetch 0, 0, 32, 0, some 8, []⟩) = false ∧ Instr.wf (.dramRequest 0 ⟨.fixer, 0, 32, 0, none, []⟩) = false ∧
    Instr.wf (.dramRequest 0 ⟨.firmware, 0, 32, 1, none, []⟩) = false ∧
    Instr.wf (.dramRequest 0 ⟨.fetch 0, 480, 32, 2 ^ 32 - 1, some 512, List.replicate 32 0⟩) = true := by decide +kernel

/-- R432: a MAC address has 6 bytes, an IPv4 address 4; R439: a port identity 10. -/
theorem test_wf_refuses_frame : Instr.wf (.ptpFrameRx ⟨2, 0, [0], 0, 0, 0, [], []⟩) = false ∧
    Instr.wf (.ptpFrameRx ⟨2, 1, List.replicate 6 0, 0, 0, 0, [], []⟩) = false ∧
    Instr.wf (.ptpFrameRx ⟨2, 1, List.replicate 4 0, 0, 9, 0, [], []⟩) = false ∧
    Instr.wf (.ptpFrameRx ⟨2, 0, List.replicate 6 0, 0, 0, 0, [], []⟩) = true := by decide +kernel

/-- R311: eight dies. -/
theorem test_wf_refuses_die_counts : Instr.wf (.odeccRead [1]) = false := by decide +kernel

/-- R273: a response holds STATUS, a 16-bit length, at most 65,535 payload bytes and a CRC; R278: chips 0 to 31. -/
theorem test_wf_refuses_sideband : Instr.wf (.sbResponse 0 (List.replicate 65541 0)) = false ∧
    Instr.wf (.retainFail 0 32) = false := by decide +kernel

/-- R466: 24 nodes; R545: up to 3 reads; R386: an entry has 64 bytes. -/
theorem test_wf_refuses_counts : Instr.wf (.thmUpdate [] .opened .opened) = false ∧ Instr.wf (.aonPowerGood 4) = false ∧
    Instr.wf (.slowCommandDone ⟨0, [], 0⟩ ⟨false, [], [], 0⟩) = false := by decide +kernel

/-! ### Witnesses for the statements' hypotheses: the step, Trays and the firmware -/

theorem hyps_StepRunsTheFrontCommand :
    ({ State.reset with pending := [.coldReset, .heartbeat] } : State).pending = .coldReset :: [.heartbeat] := by decide +kernel

theorem hyps_StepKeepsCanonicalMemories : State.reset.canonical = true ∧ ∃ t, step State.reset = .next t := ⟨by decide +kernel, _, rfl⟩

theorem hyps_StepKeepsTheQueuesAccounts : State.reset.accounts ∧ ∃ t, step State.reset = .next t := by
  refine ⟨⟨fun k h1 h2 => ?_, by decide +kernel⟩, _, rfl⟩
  have h : ∀ j : Fin 4, let p := State.reset.pool (41 + j.val)
      State.reset.occupancy (41 + j.val) = 0 ∧ p.flight = 0 ∧ (p.produced - p.issued - p.dropped : Int) % 2 ^ 64 = 0 := by decide +kernel
  obtain ⟨a, b, c⟩ := h ⟨k - 41, by omega⟩
  simp only [show 41 + (k - 41) = k by omega] at a b c
  exact ⟨by rw [a, b]; rfl, fun n _ => a ▸ n.zero_le, fun _ => c⟩

/-- A doorbell of one command in Tray 0's ring, in the clock after its arrival. -/
def rung (op cls : Nat) : State :=
  let s := on .field
  { s with now := 1, dk := { s.dk with doorbells := [(0, 0, 1)] }, trays := s.trays.set 0 { s.trays[(0 : Fin 8)] with cmdRing := ringWrite [] 0 (entry op cls 0 []) } }

def rungCmd (op cls : Nat) : Cmd := ⟨0, ((rung op cls).tray 0).cmdEntry 0, 0⟩

theorem hyps_TakenCommandsAreCheckedAndTaken :
    findCmd (cmd 0xFFF0 0 []).opcode = none ∧
    ((findCmd 0x0003).any fun r => (cmd 0x0003 1 []).cls != r.cls) = true ∧
    ((findCmd 0x0004).any fun r => (cmd 0x0004 2 []).cls == r.cls && !(decide (r.lenMin ≤ (cmd 0x0004 2 []).len))) = true ∧
    ((findCmd 0x0004).any fun r => (cmd 0x0004 10 [6]).cls == r.cls && decide (r.lenMin ≤ 1 ∧ 1 ≤ r.lenMax) && countOk (cmd 0x0004 10 [6]) &&
      decide (8 ≤ leAt (cmd 0x0004 10 [6]).entry 4 1)) = true ∧
    ((findCmd 0x0004).any fun r => decide (leAt (cmd 0x0004 2 [6]).entry 4 1 < 8) && r.t0 && decide ((⟨1, entry 4 2 0 [6], 0⟩ : Cmd).tray ≠ 0)) = true ∧
    ((findCmd 0x0004).any fun r => decide ((cmd 0x0004 2 [6]).queue = 0 ∧ (cmd 0x0004 2 [6]).target = 0 ∧ (cmd 0x0004 2 [6]).tray = 0) && r.t0) = true ∧
    (rung 1 0).dk.doorbells = (0, 0, 1) :: [] ∧ 0 < (rung 1 0).now ∧ (on .field).now ≤ 0 ∧ (rung 1 0).fw = true ∧ (rung 1 0).abortsWritten = true ∧ (rung 1 0).takeCheck (rungCmd 1 0) = 0 ∧
    (rung 0xFFF0 0).dk.doorbells = (0, 0, 1) :: [] ∧ (rung 0xFFF0 0).fw = true ∧ (rung 0xFFF0 0).abortsWritten = true ∧ (rung 0xFFF0 0).takeCheck (rungCmd 0xFFF0 0) ≠ 0 := by
  decide +kernel

/-- Tray 0 holds one response, with n entries of its ring in use. -/
def holding (n : Nat) (raised : Bool) : State :=
  let s := on .field
  { s with now := 25000, trays := s.trays.set 0 { s.trays[(0 : Fin 8)] with
    respTail := n, fullRaised := raised, held := [⟨0, 7, 1, 0, true, 0, List.replicate 24 0, 0⟩] } }

theorem hyps_ResponsesWaitForFreeEntries :
    let r : Resp := ⟨0, 7, 1, 0, true, 0, List.replicate 24 0, 0⟩
    ((holding 256 false).tray 0).held = r :: [] ∧ (holding 256 false).fw = true ∧ (holding 256 true).fw = true ∧
    256 ≤ idxSub ((holding 256 false).tray 0).respTail ((holding 256 false).tray 0).respHead ∧
    idxSub ((holding 255 false).tray 0).respTail ((holding 255 false).tray 0).respHead < 256 ∧ (holding 255 false).canonical = true ∧
    r.payload.length = 24 ∧ r.at_ + 25000 ≤ (holding 256 false).now ∧ ((holding 256 true).tray 0).fullRaised = true ∧
    ((holding 256 false).tray 0).fullRaised = false ∧ (holding 256 false).canonical = true := by decide +kernel

theorem hyps_HeartbeatWatchdogAndRestartWrite :
    let s : State := { on .field with now := 2500000000 }
    let r : State := { s with dk := { s.dk with restarting := some 1 } }
    s.fw = true ∧ s.dk.lastBeat + 25000 ≤ s.now ∧ s.canonical = true ∧ s.up dCtrl = true ∧ s.dk.running = true ∧ s.dk.restarting = none ∧
    s.pmu.sleep = .awake ∧ s.dk.lastBeat + 250000 * max 1 (s.rf idWdog 15 0) ≤ s.now ∧ r.dk.restarting = some 1 ∧ r.up dCtrl = true := by
  decide +kernel

theorem hyps_BasicCommandsAndTickWaitAnswer :
    let s := on .field
    let go (op cls : Nat) (pay : List Byte) : Bool := (taking (cmd op cls pay) s).mayStart (cmd op cls pay) op
    let late : Cmd := ⟨0, entry 8 1 5 [], 0⟩
    let far : Cmd := ⟨0, entry 8 1 65537 [], 0⟩
    let good : Cmd := ⟨0, entry 8 1 65536 [], 0⟩
    let wild : Cmd := ⟨0, entry 8 1 wildTarget [], 0⟩
    let k (n : Nat) : State := { s with expo := { s.expo with tick := n, ticked := true } }
    go 1 0 [] = true ∧ go 2 0 [] = true ∧ go 5 0 [8] = true ∧ (cmd 5 0 [8]).arg 0 1 = 8 ∧ go 5 0 [0] = true ∧ (cmd 5 0 [0]).arg 0 1 = s.dk.owner.val ∧
    go 5 0 [3] = true ∧ (cmd 5 0 [3]).arg 0 1 < 8 ∧ (cmd 5 0 [3]).arg 0 1 ≠ s.dk.owner.val ∧ go 0x203 0 [] = true ∧
    (cmd 0x203 0 []).tray = s.dk.owner ∧ (let c : Cmd := ⟨1, entry 0x203 0 0 [], 0⟩; (taking c s).mayStart c 0x203 = true ∧ c.tray ≠ s.dk.owner) ∧
    (taking late (k 5)).mayStart late 8 = true ∧ late.target ≠ wildTarget ∧ late.target ≤ (k 5).expo.tick ∧ (k 5).expo.ticked = true ∧
    (taking far (k 0)).mayStart far 8 = true ∧ (k 0).expo.tick + 65536 < far.target ∧ far.target ≠ wildTarget ∧
    (taking good (k 0)).mayStart good 8 = true ∧ (k 0).expo.tick < good.target ∧ good.target ≤ (k 0).expo.tick + 65536 ∧
    (taking wild (k 0)).mayStart wild 8 = true ∧ wild.target = wildTarget := by decide +kernel

/-! ### Witnesses: events, parameters and registers -/

theorem hyps_EventPulsesAndClearsFollowTheirRules :
    let s := on .field
    let t := s.setReg (idEvStatus 1) 1
    let full : State := { s with evu := { s.evu with queue := List.replicate 256 ⟨0, 1, 32⟩ } }
    s.canonical = true ∧ severity? 3 = none ∧ severity? 32 ≠ none ∧ s.up (srcDomain 32) = true ∧ s.up dCtrl = true ∧ s.locked 1 = true ∧
    s.evStatus 32 = false ∧ s.evu.queue.length < 256 ∧ t.canonical = true ∧ t.evStatus 32 = true ∧
    full.canonical = true ∧ 256 ≤ full.evu.queue.length ∧ severity? 192 ≠ none ∧ full.up (srcDomain 192) = true ∧
    (!full.evStatus 192 && full.evEnabled 192 && full.evHost 192) = true ∧
    s.evuOpen = true ∧ t.evuOpen = true ∧ bit 0xFFFFFFFF#32 0 = true ∧ bit 0xFFFFFFFF#32 31 = true ∧
    (⟨32, 5, 6⟩ : Pulse).src.val / 32 = (1 : Fin 18).val ∧ bit 0xFFFFFFFF#32 ((⟨32, 5, 6⟩ : Pulse).src.val % 32) = true ∧
    severity? 554 ≠ none ∧ s.up (srcDomain 554) = true := by decide +kernel

/-- Module m of a device that runs is UP with n credits of VC2 and VC3. -/
def linked (m : Fin 2) (n : Nat) (s : State) : State :=
  s.setUcie m { Ucie.reset with link := .up, configured := true, init := true, cr2 := n, cr3 := n, adv2 := 64, adv3 := 16 }

theorem hyps_EventWritesQueueMessagesThatLeaveInOrder :
    let e : EvMsg := ⟨0, 1, 32⟩
    let withQueue (l : List EvMsg) (s : State) : State := { s with evu := { s.evu with queue := l } }
    let s := withQueue (List.replicate 224 e) (on .field)
    let full := withQueue (List.replicate 256 e) (((on .field).setReg (idEvStatus 1) 1).setReg (idEvCfg 32) 0x40)
    let sends := withQueue [e] (linked 0 1 (on .field))
    s.canonical = true ∧ s.evuOpen = true ∧ s.evu.queue.length + 32 ≤ 256 ∧ full.canonical = true ∧ full.evuOpen = true ∧
    256 ≤ full.evu.queue.length ∧ (bit (1 : Word) 0 && !bit (full.reg (idEvEnable 1)) 0 && !fatalSource 32 && full.evStatus 32 && full.evHost 32) = true ∧
    s.evu.queue.length < 256 ∧ sends.evu.queue = e :: [] ∧ sends.evuOpen = true ∧ sends.msgModule = some 0 ∧
    (sends.ucie[(0 : Fin 2)]).init = true ∧ 0 < (sends.ucie[(0 : Fin 2)]).cr3 ∧
    (withQueue [e] (linked 1 1 (on .field))).msgModule = some 1 ∧ ((linked 1 1 (on .field)).ucie[(1 : Fin 2)]).init = true := by decide +kernel

/-- A PARAM_SET of two entries. -/
def setTwo (a b : Nat) (v w : Nat) : Cmd :=
  cmd 0x0102 0 ([2, 0, 0, 0, 0, 0, 0, 0] ++ leBytes 2 a ++ [0, 0] ++ leBytes 4 v ++ leBytes 2 b ++ [0, 0] ++ leBytes 4 w)

/-- Registers with effects of their own, which the statements of register writes leave out. -/
def special : List Nat :=
  [0x0402, 0x500A, 0x7400, 0x7401, 0x7500, idProtect, idRestart, idTickCtrl, idTimeCfg, 0x6420, idRfcCtrl, idRasterSize]

theorem hyps_ParamSetChecksBeforeItApplies :
    let s := on .field
    let good := setTwo idCorrCtrl idCorrCtrl 0 0
    let bad := setTwo idCorrCtrl 0x0FFF 0 0
    let two := setTwo idWakeCfg idCorrCtrl 3 8
    let free (e : Nat × Word) (f : Found) : Bool := f.d.kind == .held && !f.upper && f.lowId == e.1 && !special.contains f.d.base && f.d.base != idPtpCfg &&
      f.d.badMask (narrowed f.d.base e.2) ||| relMask f.d.base (narrowed f.d.base e.2) == 0 &&
      (s.ownerIdle f || f.d.changedMask .s (s.reg e.1) (narrowed f.d.base e.2) == 0)
    (taking good s).mayStart good 0x0102 = true ∧ (setEntries good).length = 2 ∧
    (setEntries good).all (fun e => (taking good s).entryCheck good.tray e.1 e.2 == 0) = true ∧
    (taking bad s).mayStart bad 0x0102 = true ∧ (setEntries bad).length = 2 ∧
    (setEntries bad).map (fun e => decide ((taking bad s).entryCheck bad.tray e.1 e.2 = 0)) = [true, false] ∧
    s.canonical = true ∧ (taking two s).mayStart two 0x0102 = true ∧ ((setEntries two).map Prod.fst).Nodup ∧
    (setEntries two).all (fun e => (taking two s).entryCheck two.tray e.1 e.2 == 0 && (findReg e.1).any (free e)) = true ∧
    0x0FFF / 1024 ≠ 0x3F ∧ findReg 0x0FFF = none ∧
    (findReg idBor).any (fun f => !f.upper && f.d.writable) = true ∧ (findReg 0x2012).any (fun f => f.upper || !f.d.writable) = true ∧
    (findReg 7173).any (fun f => !f.upper && f.d.writable && !f.d.inRange 0xFFFFFFFF && !statedRange f.d.base) = true ∧
    (findReg idCorrCtrl).any (fun f => f.d.inRange 0 && f.d.clsMask .t != 0) = true ∧ (1 : Fin 8) ≠ s.dk.owner ∧
    (findReg 20496).any (fun f => f.d.inRange 1 && f.d.clsMask .t == 0 && !(lit s).ownerIdle f && f.d.changedMask .s ((lit s).reg f.lowId) 1 != 0) =
      true := by decide +kernel

theorem hyps_RegisterWriteFollowsAccessCodes :
    let s := on .field
    let plain (id : Nat) (v : Word) (f : Found) : Bool := f.d.kind == .held && !f.upper && f.lowId == id && f.d.clsMask .t == 0 &&
      !special.contains f.d.base && f.d.badMask v ||| relMask f.d.base v == 0 && (s.ownerIdle f || f.d.changedMask .s (s.reg id) v == 0)
    s.canonical = true ∧ s.up dCtrl = true ∧
    (findReg idWakeCfg).any (fun f => plain idWakeCfg 0xFFFFFFFF f && f.d.accMask (fun a => a = .rw) != 0) = true ∧
    (findReg idClkLoss).any (fun f => plain idClkLoss 0xFFFFFFFF f && f.d.accMask (fun a => a = .w1c) != 0) = true := by decide +kernel

theorem hyps_SettingsAreRefusedOrStaged :
    let s := lit (on .field)
    let held (id : Nat) (f : Found) : Bool := f.d.kind == .held && !f.upper && f.lowId == id && !special.contains f.d.base
    s.canonical = true ∧ s.up dCtrl = true ∧ s.locked 1 = true ∧
    (findReg 19472).any (fun f => held 19472 f && (f.d.badMask 0xFFFFFFFF ||| relMask f.d.base 0xFFFFFFFF) != 0) = true ∧
    (findReg 20496).any (fun f => held 20496 f && (f.d.badMask 1 ||| relMask f.d.base 1) == 0 && !s.ownerIdle f &&
      f.d.changedMask .s (s.reg 20496) 1 != 0) = true ∧
    (findReg idCorrCtrl).any (fun f => held idCorrCtrl f && (f.d.badMask 8 ||| relMask f.d.base 8) == 0 && f.d.clsMask .t != 0) = true ∧
    (findReg (idMatrix 0)).any (fun f => held (idMatrix 0) f && (f.d.badMask 0x00008000 ||| relMask f.d.base 0x00008000) == 0 && f.d.clsMask .t != 0) =
      true := by decide +kernel

theorem hyps_ParametersAreReadSavedAndRestored :
    let s := on .field
    let go (op : Nat) (pay : List Byte) : Bool := (taking (cmd op 0 pay) s).mayStart (cmd op 0 pay) op
    let get (a : Nat) : List Byte := [1, 0] ++ leBytes 2 a ++ List.replicate 12 0
    let slow (op : Nat) (pay : List Byte) : Bool := (taking (cmd op 2 pay) s).mayStart (cmd op 2 pay) op
    go 0x0101 (get 0x0FFF) = true ∧ (cmd 0x0101 0 (get 0x0FFF)).arg 2 2 = 0x0FFF ∧ (cmd 0x0101 0 (get 0x0FFF)).arg 0 1 = 1 ∧
    findReg 0x0FFF = none ∧ go 0x0101 (get idBor) = true ∧ (findReg idBor).isSome = true ∧
    ((cmd 0x0101 0 (get idBor)).arg 0x0E 1).testBit 0 = false ∧
    go 0x0101 ([1, 0] ++ leBytes 2 idCorrCtrl ++ List.replicate 10 0 ++ [1, 0]) = true ∧ (findReg idCorrCtrl).any (fun f => f.d.kind == .held &&
      !f.upper && bit (f.d.clsMask .t) 3) = true ∧
    go 0x0103 [0xFF, 0x0F] = true ∧ (cmd 0x0103 0 [0xFF, 0x0F]).arg 0 2 < 0x8800 ∧ go 0x0103 [0xFF, 0x87] = true ∧
    (cmd 0x0103 0 [0xFF, 0x87]).arg 0 2 < 0x8800 ∧ s.canonical = true ∧ (findReg 2054).any (fun f => f.d.kind == .count && !f.upper) = true ∧
    slow 0x0104 [0x40] = true ∧ reservedGroup ((cmd 0x0104 2 [0x40]).arg 0 8) = false ∧ (s.saveEntries 0x40).length ≤ 2040 ∧
    (s.setReg idProtect 0).rf idProtect 1 0 = 0 ∧ s.pmu.tripped = false ∧ slow 0x0104 [0, 0, 0, 0, 4] = true ∧ reservedGroup ((cmd 0x0104 2 [0, 0, 0, 0, 4]).arg 0 8) = true ∧
    go 0x0105 [0x40] = true ∧ reservedGroup ((cmd 0x0105 0 [0x40]).arg 0 8) = false ∧
    ((groupRw 0x40).map fun e => (e.1, resetWord e.1 &&& e.2.accMask fun a => a = .rw)).all
      (fun e => (taking (cmd 0x0105 0 [0x40]) s).entryCheck 0 e.1 e.2 true == 0) = true ∧ go 0x0105 [0, 0, 0, 0, 4] = true := by decide +kernel

/-! ### Witnesses: UCIe and the Ledger -/

/-- A header slot from its fields. -/
def ist (l : List (Nat × Nat × Nat)) (data : List Byte) : Ist := ⟨0, layout 16 l, data⟩

/-- A transaction that module UA takes in state s. -/
def takes (s : State) (x : Ist) : Bool :=
  s.pmu.sleep != .resting && (s.ucie[x.m]).link == .up && s.up (dUa + x.m.val) && s.malformed x == 0 && (s.ucie[x.m]).waiting == []

def bellMsg (v : Nat) : Ist := ist [(0, 1, 4), (6, 2, 1), (8, 4, 0), (12, 4, v)] []

theorem hyps_DoorbellAppliesBothStepsOrNone :
    let b := linked 0 64 (on .field)
    let s : State := { b with dk := { b.dk with doorbells := [(0, 3, 1)] } }
    let step (x : Ist) : Bool :=
      let v := BitVec.ofNat 32 (x.h 0xC 4)
      let y := s.tray 0
      let h := (fld v 31 16 + 65536 - y.respHead) % 65536
      let n := (fld v 15 0 + 65536 - y.cmdTail) % 65536
      decide (h ≤ (y.respTail + 65536 - y.respHead) % 65536 ∧ n ≤ 256 - (s.traySlots 0 - y.finals y.respHead h))
    takes s (bellMsg 256) = true ∧ istType (bellMsg 256) = 4 ∧ s.up dCtrl = true ∧ s.locked 1 = true ∧ s.canonical = true ∧ step (bellMsg 256) = true ∧
    takes s (bellMsg 257) = true ∧ istType (bellMsg 257) = 4 ∧ step (bellMsg 257) = false ∧ s.evStatus 32 = false ∧
    step (bellMsg (2 ^ 16)) = false := by decide +kernel

def pwr (space a : Nat) (data : List Byte) : Ist := ist [(0, 1, 1), (1, 1, space), (2, 2, data.length), (8, 8, a)] data

theorem hyps_PostedWritesStoreOrAreDropped :
    let s := linked 0 64 (dmcOn 0 0)
    let z := linked 0 64 (on .standby)
    let busy := linked 0 64 (on .field)
    let w := pwr 1 (hostBase + hostSize - 64) (List.replicate 64 5)
    let w0 := pwr 1 hostBase (List.replicate 4 5)
    let u := pwr 0 0x60000 [1, 2, 3, 4]
    let r := pwr 0 0x13FFC [1, 2, 3, 4]
    let bad := ist [(0, 1, 9)] []
    s.canonical = true ∧ s.up dCtrl = true ∧ s.locked 1 = true ∧ s.pmu.sleep ≠ .resting ∧ (s.ucie[w.m]).link = .up ∧ s.up (dUa + w.m.val) = true ∧
    takes s w = true ∧ istType w = 1 ∧ w.data.length = istLen w ∧ istSpace w = 1 ∧ s.active = true ∧ inHost (istAddr w) (istLen w) = true ∧
    s.room .host (istAddr w) (istLen w) = true ∧ takes busy w = true ∧ busy.active = true ∧ busy.room .host (istAddr w) (istLen w) = false ∧
    takes s w0 = true ∧ inHost (istAddr w0) (istLen w0) = true ∧ s.room .host (istAddr w0) (istLen w0) = true ∧ takes z w = true ∧ z.active = false ∧
    takes s u = true ∧ istSpace u = 0 ∧ istType u = 1 ∧ (s.ctlWords (istAddr u) (istLen u)).any (fun x => x == .unmapped) = true ∧
    takes s r = true ∧ istSpace r = 0 ∧ istLen r = 4 ∧ s.ctlWord (istAddr r) = .tray 0 0x3FFC ∧
    s.malformed bad = 1 := by decide +kernel

def rdMsg (a n : Nat) : Ist := ist [(0, 1, 2), (1, 1, 1), (2, 2, n), (4, 1, 9), (8, 8, a)] []

theorem hyps_ReadsGetOneCompletion :
    let s := linked 0 17 (dmcOn 0 0)
    let z := linked 0 17 (on .standby)
    let busy := linked 0 17 (on .field)
    let p : State := { s with dmc := { s.dmc with poison := [(hostBase / 8, ())] } }
    let slot : PlateSlot := { PlateSlot.reset with bufs := (PlateSlot.reset.bufs).set 0 (buf8 0), inForce := true }
    let plate (entry : List Byte) (s : State) : State := (s.setPlate 3 slot).dramWrite 4096 entry
    let pl : Plane := ⟨0, .e8, 64, 64, false, 0, 4096⟩
    let x := rdMsg hostBase 64
    let w (a : Nat) : Ist := ist [(0, 1, 2), (1, 1, 0), (2, 2, 8), (4, 1, 9), (8, 8, a)] []
    let raw := plate [0, 0x3C, 0, 0x3C] s
    let common (s : State) (x : Ist) : Bool := takes s x && istType x == 2 && s.canonical && s.up dCtrl && s.locked 1 && (s.ucie[x.m]).init &&
      (s.ucie[x.m]).cpls == [] && decide (1 + ceilDiv (istLen x) 16 ≤ (s.ucie[x.m]).cr2)
    common s x = true ∧ common busy x = true ∧ common p x = true ∧ common z x = true ∧ busy.readReady x = false ∧
    common s (w 0) = true ∧ istSpace (w 0) = 0 ∧ (s.ctlWords (istAddr (w 0)) (istLen (w 0))).all (fun x => x != .unmapped) = true ∧
    common s (w 0x60000) = true ∧ (s.ctlWords (istAddr (w 0x60000)) (istLen (w 0x60000))).any (fun x => x == .unmapped) = true ∧
    common raw (rdMsg 512 4) = true ∧ istSpace (rdMsg 512 4) = 1 ∧ raw.active = true ∧ inHost (istAddr (rdMsg 512 4)) (istLen (rdMsg 512 4)) = false ∧
    raw.readReady (rdMsg 512 4) = true ∧ raw.owner? 512 = some (3, 0) ∧ (raw.buf 3 0).locate 512 = some (pl, 1, 0) ∧
    (raw.forwarded 512 (raw.readPlane pl 1)).ok = true ∧ (plate [0, 0, 0xFF, 0xFF] s).forwarded 512 ((plate [0, 0, 0xFF, 0xFF] s).readPlane pl 1) = .invalid ∧
    common (plate [0, 0, 0xFF, 0xFF] s) (rdMsg 512 4) = true ∧ common s (rdMsg 512 4) = true ∧ s.owner? 512 = none ∧ s.readReady (rdMsg 512 4) = true ∧
    raw.owner? 4111 = some (3, 0) ∧ (raw.buf 3 0).locate 4111 = none ∧
    istSpace x = 1 ∧ s.active = true ∧ inHost (istAddr x) (istLen x) = true ∧ s.readReady x = true ∧ p.readReady x = true ∧
    s.clean (istAddr x) (istLen x) = true ∧ p.clean (istAddr x) (istLen x) = false ∧ z.active = false := by decide +kernel

def cretMsg (kind a b : Nat) : Ist := ist [(0, 1, 5), (1, 1, kind), (12, 2, a), (14, 2, b)] []

theorem hyps_LinksGoUpAndDownAndCreditsReturn :
    let s := linked 0 5 (on .field)
    let f := s.setUcie 0 { s.ucie[(0 : Fin 2)] with freed := Vector.replicate 4 1 }
    let d := { on .field with pmu := { (on .field).pmu with boot := .waitFw } }
    let d1 := d.setUcie 1 { Ucie.reset with configured := true }
    s.locked 1 = true ∧ d.locked 1 = true ∧ (s.ucie[(0 : Fin 2)]).link ≠ .down ∧ takes s (cretMsg 0 1 1) = true ∧ istType (cretMsg 0 1 1) = 5 ∧ (cretMsg 0 1 1).h 1 1 < 2 ∧ (s.ucie[(0 : Fin 2)]).cpls = [] ∧
    takes s (cretMsg 2 17 1) = true ∧ istType (cretMsg 2 17 1) = 5 ∧ 2 ≤ (cretMsg 2 17 1).h 1 1 ∧ 17 ≤ (cretMsg 2 17 1).h 0xC 2 ∧
    1 ≤ (cretMsg 2 17 1).h 0xE 2 ∧ (f.ucie[(0 : Fin 2)]).link = .up ∧ (f.ucie[(0 : Fin 2)]).freed ≠ Vector.replicate 4 0 ∧
    (s.ucie[(0 : Fin 2)]).link = .up ∧ s.canonical = true ∧ s.up dCtrl = true ∧ s.up dUa = true ∧
    d.canonical = true ∧ d.up dCtrl = true ∧ d.up dUa = true ∧ (d.ucie[(0 : Fin 2)]).link = .down ∧ d.locked 15 = true ∧
    (d.ucie[(1 : Fin 2)]).link = .down ∧ d.pmu.boot ≠ .supplies ∧ d1.up dUb = true ∧ d1.locked 16 = true ∧
    (d1.ucie[(1 : Fin 2)]).link = .down ∧ (d1.ucie[(1 : Fin 2)]).configured = true ∧ (d1.ucie[(0 : Fin 2)]).link = .down ∧
    d.now ≤ d.pmu.uaActiveAt + 2500000 := by decide +kernel

theorem hyps_LedgerChecksEveryRunningSlice :
    let b : State := { on .field with time := { (on .field).time with edges := 2 ^ 20 } }
    let s := b.setPool 10 { Pool.reset with issued := 257 }
    s.canonical = true ∧ s.timeRuns = true ∧ s.run = false ∧ s.tick.strobesRun < (s.time.edges - s.tick.gridFrom) / 2 ^ 20 ∧
    s.sliceRuns 10 = true ∧ s.poolFaulty 10 = false ∧ s.up dFab = true ∧ s.up dCtrl = true ∧ s.locked 1 = true := by decide +kernel

/-! ### Witnesses: time, ticks, timed outputs and PTP -/

/-- A device whose ticks run at 60 Hz, n TIME_CLK edges after power-up. -/
def ticking (n : Nat) (m : Mode) : State :=
  let s := on m
  let s := { s with time := { s.time with edges := n, tb := Vector.replicate 4 { Timebase.reset with v := (n : Int) * 2 ^ 32 } } }
  ((s.setReg idTickCtrl 1).setReg idRateNum 60).setReg idRateDen 1

/-- The last tick has index l. -/
def lastTick (l : Option Nat) (first : Bool) (s : State) : State := { s with tick := { s.tick with last := l, first := first } }

theorem hyps_TicksFireInIndexOrder :
    let s := ticking 4166667 .field
    let z := (ticking 0 .field).setReg idEpochSecLo 1
    let a := lastTick (some 1) false s
    let n := lastTick none true s
    let b := lastTick (some 0) false s
    let j := lastTick (some 0) false (ticking 8333334 .field)
    z.timeRuns = true ∧ z.run = true ∧ z.tickIndex = none ∧ a.timeRuns = true ∧ a.run = true ∧ a.tickIndex = some 1 ∧ a.tick.last = some 1 ∧
    n.tickIndex = some 1 ∧ n.tick.last = none ∧ b.tickIndex = some 1 ∧ b.tick.last = some 0 ∧ j.tickIndex = some 2 ∧ j.tick.last = some 0 ∧
    j.tick.first = false ∧ j.canonical = true ∧ j.timeRuns = true ∧ j.run = true ∧ j.up dCtrl = true ∧ j.locked 1 = true := by decide +kernel

theorem hyps_RunStartsAndStopsTheTicks :
    let s := (ticking 0 .field).setReg idTickCtrl 0
    let lo := (s.setReg idRateNum 48).setReg idRateDen 1
    let hi := (s.setReg idRateNum 240).setReg idRateDen 1
    let slow := s.setReg idRateNum 47
    let fast := s.setReg idRateNum 241
    let wall := s.setReg idTickCtrl 2
    let member := wall.setReg idTimeCfg 3
    s.up dTime = true ∧ s.canonical = true ∧ s.run = false ∧ s.up dCtrl = true ∧ s.locked 1 = true ∧ slow.run = false ∧ slow.rateNum < 48 * slow.rateDen ∧
    240 * fast.rateDen < fast.rateNum ∧ (s.setReg idRateDen 0).rateDen = 0 ∧ (s.setReg idRateNum 0).rateNum = 0 ∧
    bit (wall.reg idTickCtrl) 1 = true ∧ wall.unified = false ∧ wall.run = false ∧ bit (member.reg idTickCtrl) 1 = true ∧ member.unified = true ∧
    bit (member.reg idTimeCfg) 1 = true ∧ member.run = false ∧ member.up dTime = true ∧ member.canonical = true ∧ 0 < member.rateDen ∧
    48 * member.rateDen ≤ member.rateNum ∧ member.rateNum ≤ 240 * member.rateDen ∧ lo.run = false ∧ 48 * lo.rateDen ≤ lo.rateNum ∧
    0 < lo.rateDen ∧ bit (lo.reg idTickCtrl) 1 = false ∧ 0 ≤ lo.tickTime ∧ lo.tickTime < 2 ^ 48 * 1000000000 * 2 ^ 30 ∧
    hi.rateNum ≤ 240 * hi.rateDen ∧ (ticking 0 .field).run = true := by decide +kernel

theorem hyps_TimebasesAdvanceAndAreAdjusted :
    let s := ticking 5 .field
    let u := s.setReg idTimeCfg 1
    let off : State := { s with pmu := { s.pmu with powered := 3 } }
    let get (b : Nat) : Cmd := cmd 0x0801 0 [BitVec.ofNat 8 b]
    let adj (b k : Nat) (x : Int) : Cmd := cmd 0x0802 0 ([BitVec.ofNat 8 b, BitVec.ofNat 8 k] ++ List.replicate 6 0 ++ leBytes 8 (unsigned 64 x))
    let own := s.setReg idPtpCfg (BitVec.ofNat 32 (2 ^ 31))
    let ok (c : Cmd) : Bool := (taking c s).mayStart c 0x0802
    s.pending = [] ∧ s.pmu.lowering = none ∧ s.raising = false ∧ s.time.ptp.excess = [] ∧ s.tick.runLate = false ∧ s.timeRuns = true ∧ [0, 1, 2, 3].all (fun b => (s.tb b).adj == []) = true ∧ s.unified = false ∧
    u.unified = true ∧ u.timeRuns = true ∧ off.timeRuns = false ∧ off.pending = [] ∧ s.up dTime = true ∧
    (taking (get 4) s).mayStart (get 4) 0x0801 = true ∧ 4 ≤ (get 4).arg 0 1 ∧ (taking (get 3) s).mayStart (get 3) 0x0801 = true ∧
    (get 3).arg 0 1 < 4 ∧ ok (adj 4 0 0) = true ∧ 4 ≤ (adj 4 0 0).arg 0 1 ∧ ok (adj 0 2 0) = true ∧ 2 ≤ (adj 0 2 0).arg 1 1 ∧
    ok (adj 0 1 (2 ^ 22 + 1)) = true ∧ 2 ^ 22 < (signed 64 ((adj 0 1 (2 ^ 22 + 1)).arg 8 8)).natAbs ∧ (adj 0 1 (2 ^ 22 + 1)).arg 1 1 = 1 ∧
    ok (adj 0 0 (-(2 ^ 40))) = true ∧ s.view 0 + signed 64 ((adj 0 0 (-(2 ^ 40))).arg 8 8) * 2 ^ 14 < 0 ∧
    ok (adj 0 1 (-(2 ^ 22))) = true ∧ (signed 64 ((adj 0 1 (-(2 ^ 22))).arg 8 8)).natAbs ≤ 2 ^ 22 ∧ s.tbOwned 0 = false ∧
    ok (adj 0 0 1) = true ∧ (adj 0 0 1).arg 1 1 = 0 ∧ 0 ≤ s.view 0 + signed 64 ((adj 0 0 1).arg 8 8) * 2 ^ 14 ∧
    s.view 0 + signed 64 ((adj 0 0 1).arg 8 8) * 2 ^ 14 ≤ 2 ^ 48 * 1000000000 * 2 ^ 30 ∧ own.tbOwned 0 = true ∧ s.pmu.mode ≠ .standby ∧ (ticking 5 .standby).pending = [] ∧
    (ticking 5 .standby).pmu.lowering = none ∧ (ticking 5 .standby).raising = false ∧ (ticking 5 .standby).time.ptp.excess = [] ∧ (ticking 5 .standby).pmu.mode = .standby ∧ (ticking 5 .standby).timeRuns = true ∧
    [0, 1, 2, 3].all (fun b => ((ticking 5 .standby).tb b).adj == []) = true ∧
    (taking (adj 0 0 1) own).mayStart (adj 0 0 1) 0x0802 = true := by decide +kernel

/-- Timed output 0: its control word, START in ns, PERIOD and WIDTH. -/
def output (ctrl : Word) (ns per wid : Nat) (s : State) : State :=
  (((s.setReg (idTo 0 0) ctrl).setReg (idTo 0 3) (BitVec.ofNat 32 ns)).setReg (idTo 0 4) (BitVec.ofNat 32 per)).setReg (idTo 0 5) (BitVec.ofNat 32 wid)

def timedOut (n per wid ns : Nat) : Cmd :=
  cmd 0x0805 0 (leBytes 4 n ++ leBytes 4 0 ++ leBytes 6 0 ++ leBytes 4 ns ++ leBytes 2 0 ++ leBytes 4 per ++ leBytes 4 wid)

theorem hyps_TimedOutputsAndStrobesPulse :
    let s := ticking 5 .field
    let ok (c : Cmd) : Bool := (taking c s).mayStart c 0x0805
    let arm := output 0 1000 0 4 s
    let past := output 0 1 0 4 s
    let again := output 0 20 5 4 s
    let run : Word := BitVec.ofNat 32 (2 ^ 31)
    let edge := output run 20 0 4 s
    let tick := output (run ||| 8) 20 100 4 s
    let tickOff := (output (run ||| 8) 20 100 4 s).setReg idTickCtrl 0
    let late : State := { tickOff with tick := { tickOff.tick with hostRunAt := some tickOff.now } }
    ok (timedOut 4 0 4 1000) = true ∧ 4 ≤ (timedOut 4 0 4 1000).arg 0 1 ∧ ok (timedOut 0 0 3 1000) = true ∧ (timedOut 0 0 3 1000).arg 0x18 4 < 4 ∧
    ok (timedOut 0 4 4 1000) = true ∧ (timedOut 0 4 4 1000).arg 0x14 4 ≤ (timedOut 0 4 4 1000).arg 0x18 4 ∧ (timedOut 0 4 4 1000).arg 0x14 4 ≠ 0 ∧
    ok (timedOut 3 5 4 1000) = true ∧ (timedOut 3 5 4 1000).arg 0x18 4 < (timedOut 3 5 4 1000).arg 0x14 4 ∧ (timedOut 3 5 4 1000).arg 0 1 < 4 ∧
    s.canonical = true ∧ s.view 0 < timeOf ((timedOut 3 5 4 1000).arg 8 6) ((timedOut 3 5 4 1000).arg 0xE 4) 0 ∧
    ok (timedOut 3 0 4 20) = true ∧ (timedOut 3 0 4 20).arg 0x14 4 = 0 ∧ timeOf ((timedOut 3 0 4 20).arg 8 6) ((timedOut 3 0 4 20).arg 0xE 4) 0 ≤ s.view 0 ∧
    ok (timedOut 3 5 4 20) = true ∧ (timedOut 3 5 4 20).arg 0x14 4 ≠ 0 ∧ timeOf ((timedOut 3 5 4 20).arg 8 6) ((timedOut 3 5 4 20).arg 0xE 4) 0 ≤ s.view 0 ∧
    fld (BitVec.ofNat 32 ((timedOut 3 5 4 20).arg 4 4)) 2 1 = 0 ∧ again.toArmed 0 = false ∧ again.canonical = true ∧ again.up dTime = true ∧
    again.toStart 0 ≤ again.view (again.toTb 0) ∧ again.toPeriod 0 ≠ 0 ∧
    arm.up dTime = true ∧ arm.canonical = true ∧ arm.toArmed 0 = false ∧ arm.view (arm.toTb 0) < arm.toStart 0 ∧
    past.toStart 0 ≤ past.view (past.toTb 0) ∧ past.toPeriod 0 = 0 ∧ past.toArmed 0 = false ∧ past.up dCtrl = true ∧
    edge.timeRuns = true ∧ edge.canonical = true ∧ edge.toArmed 0 = true ∧ (edge.out 0).pulseEnd = none ∧ (edge.out 0).due = false ∧
    (edge.out 0).k = 0 ∧ edge.reachStep (edge.toTb 0) (edge.toNext 0) = some 0 ∧ bit (edge.reg (idTo 0 0)) 3 = false ∧
    bit (tick.reg (idTo 0 0)) 3 = true ∧ tick.run = true ∧ (tick.out 0).fired = false ∧ tick.toPeriod 0 ≠ 0 ∧ tick.reachStep (tick.toTb 0) (tick.toNext 0) = some 0 ∧
    late.tick.hostRunAt = some late.now ∧ (late.out 0).fired = false ∧ late.reachStep (late.toTb 0) (late.toNext 0) = some 0 ∧ late.timeRuns = true ∧
    late.canonical = true ∧ tickOff.tick.hostRunAt ≠ some tickOff.now ∧ past.locked 1 = true ∧ tickOff.run = false ∧ bit (tickOff.reg idTickCtrl) 1 = false ∧ 0 < tickOff.rateDen ∧ 48 * tickOff.rateDen ≤ tickOff.rateNum ∧
    tickOff.rateNum ≤ 240 * tickOff.rateDen ∧ tickOff.reachStep (tickOff.toTb 0) (tickOff.toNext 0) = some 0 := by decide +kernel

theorem hyps_TimedOutputsAndStrobesPulse_ends :
    let s := ticking 5 .field
    let edge := output (BitVec.ofNat 32 (2 ^ 31)) 20 0 4 s
    let again (due : Bool) : State := let s := output (BitVec.ofNat 32 (2 ^ 31)) 10 10 4 s
      { s with time := { s.time with outs := s.time.outs.set 0 ⟨1, some 23, due, true⟩ } }
    let high : State := { edge with time := { edge.time with outs := edge.time.outs.set 0 ⟨1, some 23, false, true⟩ } }
    let strobe : State := { lastTick (some 0) false s with time := { s.time with strobes := s.time.strobes.set 0 ⟨some 0, none⟩ } }
    let strobeHigh : State := { s with time := { s.time with strobes := s.time.strobes.set 0 ⟨none, some 23⟩ } }
    (again true).timeRuns = true ∧ (again true).canonical = true ∧ (again true).toArmed 0 = true ∧ ((again true).out 0).pulseEnd ≠ none ∧
    ((again true).out 0).due = true ∧ ((again false).out 0).due = false ∧ (again false).toPeriod 0 ≠ 0 ∧
    (again false).reachStep ((again false).toTb 0) ((again false).toNext 0) = some 0 ∧ s.up dCtrl = true ∧ s.locked 1 = true ∧
    strobe.rasterFired = false ∧ ({ s with tick := { s.tick with toArrive := [⟨0, 0, 0, false, false⟩] } } : State).rasterFired = true ∧
    high.timeRuns = true ∧ high.canonical = true ∧ (high.out 0).pulseEnd = some 23 ∧ 23 ≤ high.localNs + 3 ∧
    strobe.timeRuns = true ∧ (strobe.time.strobes[(0 : Fin 4)]).due = some 0 ∧ strobe.panel.strobesHeld = false ∧
    ((List.range 4).find? fun j => decide (strobe.nominalNum 0 + ((strobe.reg (idStbOffset (0 : Fin 4))).toNat : Int) * strobe.rateNum * 2 ^ 30 ≤
      strobe.viewPlus strobe.tickTb j * strobe.rateNum)) = some 0 ∧
    (strobeHigh.time.strobes[(0 : Fin 4)]).pulseEnd = some 23 ∧ 23 ≤ strobeHigh.localNs + 3 := by decide +kernel

/-- The PTP port is enabled with the given flags, its link up and locked. -/
def ptpOn (flags : Nat) (s : State) : State :=
  let s := s.setReg idPtpCfg (BitVec.ofNat 32 (2 ^ 31 + flags))
  { s with time := { s.time with ptp := { s.time.ptp with link := true, locked := true, settings := [0, 0, 0, 0, 0, 0, 0, 3] } } }

theorem hyps_PtpPortAndStampQueueFollowTheirRules :
    let s : State := { ptpOn 0 (ticking 5 .field) with now := 750000000 }
    let h := ptpOn (2 ^ 25) (ticking 5 .field)
    let fr (v : Nat) (d : Nat) : PtpFrame := ⟨v, 0, [0x01, 0x1B, 0x19, 0, 0, 0], d, 0, 0, [], []⟩
    let cfg (x : Byte) : Cmd := cmd 0x0803 2 ([0, 0, 0, 0, 0, 0, 0, x] ++ List.replicate 16 0)
    let e (o : Option Int) (no : Bool) : TsEntry := ⟨5, 0, 0, 0, 0, o, no⟩
    let q (l : List TsEntry) : State := { h with now := 250000000, time := { h.time with ptp := { h.time.ptp with queue := l } } }
    let c := cmd 0x0804 0 []
    let own : PtpFrame := { fr 2 0 with dst := s.ptpMac, msgType := 9, requester := s.portIdentity }
    let excess : State := { h with time := { h.time with ptp := { h.time.ptp with excess := [e none false] } } }
    s.up dTime = true ∧ bit (s.reg idPtpCfg) 31 = true ∧ s.time.ptp.link = true ∧ (fr 1 0).version ≠ 2 ∧ (fr 2 0).version = 2 ∧
    (fr 2 0).transport = 0 ∧ fld (s.reg idPtpCfg) 29 28 ≠ 1 ∧ (fr 2 0).dst ∈ ptpGroups 0 ∧ s.locked 1 = true ∧ (fr 2 1).dom ≠ fld (s.reg idPtpCfg) 6 0 ∧
    (fr 2 0).dom = fld (s.reg idPtpCfg) 6 0 ∧ s.fw = true ∧ s.time.ptp.inbox = [] ∧
    ({ s with dk := { s.dk with running := false } } : State).fw = false ∧ bit (h.reg idPtpCfg) 25 = true ∧ (taking (cfg 1) s).mayStart (cfg 1) 0x0803 = true ∧
    ptpArgOk (cfg 1) = false ∧ (taking (cfg 2) s).mayStart (cfg 2) 0x0803 = true ∧ ptpArgOk (cfg 2) = true ∧ s.canonical = true ∧
    s.time.ptp.locked = true ∧ s.time.ptp.lastSync + leAt s.time.ptp.settings 7 1 * (250000000 * 2 ^ 0) ≤ s.now ∧
    signed 8 (leAt s.time.ptp.settings 6 1) = 0 ∧ s.up dCtrl = true ∧ h.timeRuns = true ∧ (3 : BitVec 4).toNat ≤ 3 ∧
    (q (List.replicate 15 (e none false))).time.ptp.queue.length < 16 ∧ 16 ≤ (q (List.replicate 16 (e none false))).time.ptp.queue.length ∧
    own.msgType = 9 ∧ own.requester = s.portIdentity ∧ own.dst = s.ptpMac ∧ (fr 2 0).requester ≠ s.portIdentity ∧ s.time.ptp.excess = [] ∧ excess.pending = [] ∧
    excess.time.ptp.excess = [e none false] ∧ excess.canonical = true ∧ excess.up dTime = true ∧ excess.up dCtrl = true ∧ excess.locked 1 = true ∧
    s.locked 14 = true ∧
    (taking c s).mayStart c 0x0804 = true ∧ bit (s.reg idPtpCfg) 25 = false ∧ (taking c h).mayStart c 0x0804 = true ∧ h.time.ptp.queue = [] ∧
    (q [e none false]).time.ptp.queue = e none false :: [] ∧ (q [e (some 1) false]).time.ptp.queue = e (some 1) false :: [] ∧
    (taking c (q [e none true])).mayStart c 0x0804 = true ∧ (q [e none true]).time.ptp.queue = e none true :: [] ∧
    (e none false).queuedAt + 250000000 ≤ (q []).now := by decide +kernel

/-! ### The worked examples of the spec: the arithmetic that the commands use -/

/-- Chapter 3: an RGBA8 texel of straight codes. -/
theorem test_texel_rgba8 : decodeTexel 0 ⟨false, false, false, false, 0, 0, 0, 0⟩ (128 + 256 * 10 + 65536 * 255 + 2 ^ 24 * 128) 0 none =
    ⟨7101, 100, 32896, 32896⟩ := by decide +kernel

/-- Chapter 3: a limited-range BT.709 texel, whose blue is a tie. -/
theorem test_texel_ycbcr : decodeTexel 3 ⟨false, false, false, false, 0, 0, 0, 0⟩ 502 (512 + 65536 * 736) none = ⟨58553, 25112, 32800, 65535⟩ := by
  decide +kernel

/-- Chapter 4: the region record of the example. -/
def recordOfRay : List Byte :=
  layout 1088 [(0, 4, unsigned 32 832), (4, 4, unsigned 32 (-384)), (8, 4, 67112960), (0xC, 4, 8192), (0x10, 4, unsigned 32 (-8192)), (0x14, 4, 67104768),
    (0x18, 2, 1024), (0x1A, 2, 256), (0x1C, 4, 1), (0x24, 2, 2048), (0x40 + 4 * 45, 2, 18500), (0x42 + 4 * 45, 2, unsigned 16 (-18400))]

def entryOfRay : RfEntry := rfEntry ⟨1048576, 524288, 5369, 5369, 700, 700, 6400⟩ 20 3 7936

theorem test_refocus_entry : entryOfRay = ⟨579852, -579852, 503, 503, 37, -37⟩ := by decide +kernel

theorem test_ray : rayOf recordOfRay entryOfRay 1 true 0x2F 2097152 0 20733 3186 = ⟨3423761, 204274, 20505, -18365⟩ := by decide +kernel

/-- Chapter 5: the front plate of the example, and the texels it reads. -/
def plateOfRay (typ : Nat) (z : Int) : Placed :=
  ⟨typ, 1024, 1024, 1, 1, 3400000, 180000, z, 25600, 25600, 16384, 0, 256, 1, 0, 0, 0, 0⟩

def tapsOfRay (x y : Nat) : Tap :=
  match x, y with
  | 253, 227 => ⟨⟨7101, 100, 32896, 32896⟩, 40000⟩
  | 254, 227 => ⟨⟨0, 0, 0, 0⟩, 40000⟩
  | 253, 228 => ⟨⟨65535, 65535, 65535, 65535⟩, 20000⟩
  | 254, 228 => ⟨⟨14146, 199, 65535, 65535⟩, 20000⟩
  | _, _ => tapOut

def rayOfExample : Ray := ⟨3423761, 204274, 20505, -18365⟩

theorem test_sample_flat : samplePlate (plateOfRay 0 163840) tapsOfRay rayOfExample = (⟨53144, 50876, 61501, 61501⟩, 1, 0) := by decide +kernel

theorem test_composite_stops_when_opaque :
    composite [fun _ => samplePlate (plateOfRay 0 163840) tapsOfRay rayOfExample, fun _ => (⟨20046, 20046, 20046, 65535⟩, 1, 0),
      fun _ => (⟨1, 1, 1, 1⟩, 1, 0)] comp0 = ⟨⟨54378, 52110, 62735, 65535⟩, 2, 0, true⟩ := by decide +kernel

/-- The RELIEF variant: step 1's depth sample is a tie. -/
theorem test_relief_depth : (sampleAt (plateOfRay 1 131072) tapsOfRay 0 0 (texCoord (plateOfRay 1 131072) (intersect rayOfExample 163840))).h = 22188 ∧
    texCoord (plateOfRay 1 131072) (intersect rayOfExample 153260) = (64664, 58706) := by decide +kernel

/-- Chapter 6: the tiles of two plates that a strip's rays can touch. -/
def boxOfStrip : RayBox := ⟨1049087, 1080833, 205311, 205313, -22938, 22938, -22938, 22938⟩

theorem test_strip_box : rayBox (layout 1088 [(8, 4, 67108864), (0x14, 4, 67108864)]) rfIdentity ⟨-22938, 22938, -22938, 22938⟩ true false 0 0 32 200 =
    boxOfStrip := by decide +kernel

theorem test_footprints :
    let p (n : Nat) (z : Int) : Placed := ⟨0, n, n, 1, 1, 1000000, 150000, z, 32768, 32768, 16384, 0, 0, 0, 0, 0, 0, 0⟩
    footprint (p 1024 131072) boxOfStrip false = ⟨371, 643, 420, 443⟩ ∧ footprint (p 2048 524288) boxOfStrip false = ⟨338, 676, 386, 477⟩ ∧
    (footTiles (p 1024 131072) (footprint (p 1024 131072) boxOfStrip false)).length = 6 ∧
    (footTiles (p 2048 524288) (footprint (p 2048 524288) boxOfStrip false)).length = 12 := by decide +kernel

/-- Chapter 7: the E8 ramp takes three units, predicts from above, and its stream begins 0x41 0xB4. -/
theorem test_block_ramp :
    let c := codeBlock .e8 15 [0] ((List.range 512).map fun i => BitVec.ofNat 8 (i % 64)) false
    c.mode = 1 ∧ c.stored.length = 96 ∧ c.stored.take 2 = [0x41, 0xB4] ∧ mkEntry c.mode (c.stored.length / 32 - 1) false false c.fb = 0x4800 := by
  decide +kernel

/-- Chapter 8: the red channel of the composited pixel. -/
theorem test_correction :
    let od (_ _ o t : Nat) : Nat := match o, t with
      | 20, 29 => 15620 | 21, 29 => 15540 | 20, 30 => 16150 | 21, 30 => 16080 | _, _ => 0
    matrixStage 8192 (-512) 256 0 54378 52110 62735 = 53082 ∧ dodgeStage 53082 124 (-3) 132 1 = 53022 ∧
    transferStage (fun n => if n = 3313 then 14876 else 14878) 53022 = 14878 ∧
    odStage od (fun _ => 2) 3 3 0 256 14878 0xA0 = ⟨15626, 0xA1, false⟩ ∧ grainStage true 0 20733 3186 15626 = 977 := by decide +kernel

/-- Chapter 9: the starts of line periods 1,655 and 1,662 , 835,208 and 838,741 ns after the tick. -/
theorem test_period_starts : (periodStart 5000000 256 8256 1655 * 5 + 3) / 6 = 835208 ∧ (periodStart 5000000 256 8256 1662 * 5 + 3) / 6 = 838741 ∧
    nominalCycles 1 240 1 = 5000000 := by decide +kernel

/-- Chapter 12: the address of the example. -/
theorem test_address_decode : dramPc 0x24C3A6E00 = 47 ∧ dramBank 0x24C3A6E00 = 8 ∧ dramSid 0x24C3A6E00 = 3 ∧ dramRow 0x24C3A6E00 = 1176 ∧
    fixerOf 0x24C3A6E00 = 1 := by decide +kernel

/-- Chapter 19: the gain factor of a worn region, and two of its gains. -/
theorem test_gain : gainFactor 1309 327 = 66533 ∧ coarseGain 132 66533 = 134 ∧ coarseGain 126 66533 = 128 ∧
    1400000000000000 * 67374 / 2 ^ 56 = 1309 := by decide +kernel

/-- Chapter 21: one row of 512 hogels takes 1,656 cycles. -/
theorem test_row_cycles : rowCycles 512 = 1656 := by decide +kernel

/-- Chapter 2: four plates at 240 Hz. The samples line fits; with four RELIEF steps it does not. -/
theorem test_admission :
    let s := (((ticking 0 .field).setReg idRateNum 240).setReg idRateDen 1).setReg idRasterSize (BitVec.ofNat 32 (32 + 64 * 512))
    let plates (ctrl : Word) : List Load := [(⟨2, 0, 1024, 1024, 8, 8, false⟩ : Geom).load false 0, (⟨1, 1, 16384, 8192, 1, 1, false⟩ : Geom).load false ctrl,
      (⟨0, 0, 16384, 16384, 1, 1, false⟩ : Geom).load false 0, (⟨0, 3, 16384, 16384, 1, 1, true⟩ : Geom).load false 0]
    (budgetLines s.reg .field 0 (plates 0x2000)).map (fun l => (l.demand, l.cap)) = [(4831838208, 4864000000), (536870912, 608000000),
      (335544320 + 1006632960 + 1342177280 + 1342177280, 0), (3221225472, 0), (1086324736, 0), (536870912, 0), (541666667, 0), (208333334, 0),
      (9620952961, 14506666666), (8870952960, 13756666665)] ∧
    linesReason (budgetLines s.reg .field 0 (plates 0x2000)) = 0x0200 ∧ linesReason (budgetLines s.reg .field 0 (plates 0x3000)) = 0x0201 := by
  decide +kernel

/-- Chapter 16: the parameter IDs of the example. -/
theorem test_identifiers : idLoupe 2 5 4 = 0x48BD ∧ idLoupe 2 5 3 = 0x48BC := by decide +kernel

/-! ### Witnesses: the DRAM controller -/

/-- A request of class c in a scheduler, its number n. -/
def queuedReq (n : Nat) (c : DClass) (shared issued aged : Bool) : DReq :=
  ⟨n, n, ⟨.firmware, 0, 64, 0, none, []⟩, c, c, shared, 0, aged, issued, 0, false, none, none⟩

/-- Pseudo-channel p holds these requests. -/
def queueing (p : Fin 64) (l : List DReq) (s : State) : State := s.setPc p { PseudoCh.reset with queued := l }

theorem hyps_DramTokensAndArbitration :
    let q (own sh : Nat) : State := queueing 0 (List.replicate own (queuedReq 0 .mg false false false) ++
      List.replicate sh (queuedReq 0 .be true false false)) (dmcOn 0 0)
    let r : DramReq := ⟨.firmware, 0, 64, 0, none, []⟩
    let own (s : State) : Nat := ((s.pc 0).queued.filter fun e => e.tok == s.classOf r.who && !e.shared).length
    let free (s : State) : Nat := 20 - ((s.pc 0).queued.filter fun e => e.shared).length
    let g := classGuard .mg
    let c := queueing 0 [queuedReq 0 .be false false false, queuedReq 1 .mg false false false] (dmcOn 0 0)
    let v := queueing 0 [queuedReq 0 .be false false false, queuedReq 1 .rtp false false false] (dmcOn 0 0)
    let d := queueing 0 [queuedReq 3 .rt false true false] (dmcOn 0 0)
    let paused (s : State) : State := { s with dmc := { s.dmc with pauses := [(0, 0, 30)] } }
    (q 3 0).dmcRuns = true ∧ dramPc r.addr = (0 : Fin 64).val ∧ ((q 3 0).pc 0).waiting = [] ∧ own (q 3 0) < classReserved ((q 3 0).classOf r.who) ∧
    classReserved ((q 4 (19 - g)).classOf r.who) ≤ own (q 4 (19 - g)) ∧ classGuard ((q 4 (19 - g)).classOf r.who) < free (q 4 (19 - g)) ∧
    classReserved ((q 4 (20 - g)).classOf r.who) ≤ own (q 4 (20 - g)) ∧ free (q 4 (20 - g)) ≤ classGuard ((q 4 (20 - g)).classOf r.who) ∧
    ((q 4 (20 - g)).pc 0).waiting = [] ∧
    c.dmcRuns = true ∧ (c.pc 0).choose (c.issuable 0) [] = some (queuedReq 1 .mg false false false) ∧
    (c.pc 0).choose (c.issuable 0) [1] = some (queuedReq 0 .be false false false) ∧ queuedReq 1 .mg false false false ∈ c.issuable 0 ∧
    mayPass ((c.issuable 0).filter fun x => x.rank == (queuedReq 1 .mg false false false).rank) (queuedReq 1 .mg false false false) = true ∧
    (v.pc 0).choose (v.issuable 0) [] = some (queuedReq 1 .rtp false false false) ∧ (v.pc 0).choose (v.issuable 0) [1] = none ∧
    queuedReq 1 .rtp false false false ∈ v.issuable 0 ∧ d.dmcRuns = true ∧ (d.pc 0).waiting = [] ∧
    ((d.pc 0).queued.find? fun e => e.num == 3) = some (queuedReq 3 .rt false true false) ∧ d.badBeats 0 64 = [] ∧
    d.canonical = true ∧ (paused (dmcOn 0 0)).paused 0 = true ∧ d.live (idDmcBytes (classIx .rt)) + (queuedReq 3 .rt false true false).req.counted < 2 ^ 48 := by
  decide +kernel

theorem hyps_AgingRefreshRetrainingAndPowerDown :
    let w (n : Nat) (ctrl : Word) (c : DClass) : State := queueing 5 [queuedReq 2 c false false false] (dmcOn n ctrl)
    let r (c : DClass) : DReq := queuedReq 2 c false false false
    let owes (n : Nat) (x : Int) : State := { dmcOn n 0 with dmc := { (dmcOn n 0).dmc with debt := mapPut [] (debtKey 5 1 2) x } }
    let idle := dmcOn 63 0x100
    let k := debtKey 5 1 2
    let k0 := debtKey 5 0 0
    let busy : State := { w 0 0 .be with dmc := { (w 0 0 .be).dmc with debt := mapPut [] k0 8 } }
    (w 250 0 .mg).dmcRuns = true ∧ ((w 250 0 .mg).pc 5).find 2 = some (r .mg) ∧ (r .mg).issued = false ∧ (r .mg).aged = false ∧
    (r .mg).asked + 250 ≤ (w 250 0 .mg).now ∧ ((w 500 0x20000 .be).pc 5).find 2 = some (r .be) ∧
    (r .be).asked + 250 * (w 500 0x20000 .be).rf idDmcCtrl 21 16 ≤ (w 500 0x20000 .be).now ∧ (w 1001 0 .mg).up dDmc = true ∧ (r .mg).late = false ∧
    (r .mg).asked + 1000 < (w 1001 0 .mg).now ∧ (r .be).asked + 16000 < (w 16001 0 .be).now ∧
    (w 1001 0 .mg).canonical = true ∧ (w 1001 0 .mg).up dCtrl = true ∧ (w 1001 0 .mg).locked 1 = true ∧
    (owes 1954 7).dmcRuns = true ∧ (owes 1954 7).canonical = true ∧ 8 ≤ (owes 1954 7).debt k + 1 ∧
    (owes 1953 7).dmcRuns = true ∧ 16 * (owes 1953 7).now < ((owes 1953 7).refInt k).1 + tRefi ((owes 1953 7).refInt k).2 ∧
    ((owes 1954 7).refInt k).1 + tRefi ((owes 1954 7).refInt k).2 ≤ 16 * (owes 1954 7).now ∧
    (owes 1953 7).canonical = true ∧ ((w 0 0 .be).pc 5).queued.all (fun r => bankKey r.req.addr != 16 * 1 + 2) = true ∧
    -8 < (owes 0 (-7)).debt k ∧ (owes 0 (-8)).canonical = true ∧ (owes 0 (-7)).canonical = true ∧ (owes 0 (-8)).debt k ≤ -8 ∧
    busy.dmcRuns = true ∧ busy.canonical = true ∧ 8 ≤ busy.debt k0 ∧
    (busy.pc 5).queued.any (fun r => bankKey r.req.addr == 0) = true ∧ (dmcOn 125001 0).dmcRuns = true ∧
    (∀ q : Fin 4, (dmcOn 125001 0).scanning q = false) ∧ (dmcOn 125001 0).dmc.lastPass[(31 : Fin 32)] + 125000 < (dmcOn 125001 0).now ∧
    (dmcOn 125001 0).passing 31 < 2 ∧ (∀ e ∈ (dmcOn 125001 0).dmc.deferred, e.1 / 2 ≠ 31) ∧
    (dmcOn 125001 0).canonical = true ∧ (dmcOn 125001 0).up dCtrl = true ∧ (dmcOn 125001 0).locked 1 = true ∧ idle.dmcRuns = true ∧ idle.rf idDmcCtrl 15 8 ≠ 0 ∧
    (∀ p : Fin 64, (∀ r ∈ (idle.pc p).queued ++ (idle.pc p).waiting, dramSid r.req.addr ≠ (3 : Fin 8).val) ∧
      (∀ e ∈ (idle.pc p).rows, e.1 / 16 ≠ (3 : Fin 8).val) ∧ (idle.pc p).rtpQueued = false) ∧
    4 * idle.dmc.sidIdle[(3 : Fin 8)] + 250 * idle.rf idDmcCtrl 15 8 ≤ 4 * idle.now := by decide +kernel

theorem hyps_ErrorsScrubAndTheMap :
    let s := dmcOn 0 1
    let z (n : Nat) : State := { s with dmc := { s.dmc with scrubPos := n } }
    let hot : State := { s with dmc := { s.dmc with ceRaised := 1 } }
    let bad : State := { s with dmc := { s.dmc with poison := [(0, ())] } }
    let upset (multi : Bool) : State := { s with dmc := { s.dmc with upset := [(0, multi)] } }
    let late : State := { s with now := 1, dmc := { s.dmc with odeccDue := 2 } }
    let go (op : Nat) (pay : List Byte) : Bool := (taking (cmd op (if op = 0x0702 then 2 else 0) pay) s).mayStart (cmd op (if op = 0x0702 then 2 else 0) pay) op
    s.dmcRuns = true ∧ bit (s.reg idDmcCtrl) 0 = true ∧ s.canonical = true ∧ s.dmc.scrubAt ≤ s.now * 2 ^ 32 ∧
    (∀ r ∈ (s.pc (pcOf 0)).queued, bankKey r.req.addr ≠ bankKey 0) ∧ (z (2 ^ 32 - 2)).dmc.scrubPos + 1 < 2 ^ 32 ∧
    (z 0).badBeats (8 * 0) 8 = [] ∧ s.locked 1 = true ∧ (upset true).canonical = true ∧ (upset true).poisoned 0 = false ∧
    mapFind (upset true).dmc.upset 0 = some true ∧ (upset false).canonical = true ∧ mapFind (upset false).dmc.upset 0 = some false ∧
    late.now < late.dmc.odeccDue ∧ late.canonical = true ∧ late.fw = true ∧ late.up dDmc = true ∧ s.dmc.odeccDue ≤ s.now ∧ s.dmc.ceRaised.getLsbD (dramPc 0 / 2) = false ∧ s.up dCtrl = true ∧ hot.dmc.ceRaised.getLsbD (dramPc 0 / 2) = true ∧
    hot.canonical = true ∧ bad.poisoned bad.dmc.scrubPos = true ∧ bad.dmc.scrubPos + 1 < 2 ^ 32 ∧
    bad.canonical = true ∧
    (z (2 ^ 32 - 1)).canonical = true ∧ (z (2 ^ 32 - 1)).dmc.scrubPos = 2 ^ 32 - 1 ∧ (z (2 ^ 32 - 1)).badBeats (8 * (2 ^ 32 - 1)) 8 = [] ∧
    s.fw = true ∧ s.up dDmc = true ∧ go 0x0701 [5] = true ∧ 5 ≤ (cmd 0x0701 0 [5]).arg 0 1 ∧ go 0x0701 [4] = true ∧
    dramRegion ((cmd 0x0701 0 [4]).arg 0 1) = some (0x7E0000000, 0x20000000) ∧ go 0x0702 (leBytes 8 (2 ^ 35) ++ leBytes 8 1) = true ∧
    2 ^ 35 < (cmd 0x0702 2 (leBytes 8 (2 ^ 35) ++ leBytes 8 1)).arg 0 8 + (cmd 0x0702 2 (leBytes 8 (2 ^ 35) ++ leBytes 8 1)).arg 8 8 ∧
    go 0x0702 (leBytes 8 0 ++ leBytes 8 (2 ^ 35)) = true ∧
    (cmd 0x0702 2 (leBytes 8 0 ++ leBytes 8 (2 ^ 35))).arg 0 8 + (cmd 0x0702 2 (leBytes 8 0 ++ leBytes 8 (2 ^ 35))).arg 8 8 ≤ 2 ^ 35 := by decide +kernel

/-! ### Witnesses: exposures and commits -/

/-- A COMMIT of a target, its report at address a. -/
def commit (target a : Nat) : Cmd := ⟨0, entry 0x0201 0 target (leBytes 8 a), 0⟩

/-- An exposure is staged that names no plate; ticks run at 60 Hz and tick 1 has arrived. -/
def staging (n : Nat) : State :=
  let s := ticking n .field
  { s with regs := { s.regs with staged := [(idBlend, 0)] }, expo := { s.expo with tick := 1, ticked := true } }

/-- A pending set for tick k of command c, its exposure with the given actions. -/
def pendSet (k : Nat) (c : Cmd) (acts : List Nat) : PendSet := ⟨k, c, [(idBlend, 0)], true, acts, false, 0⟩

theorem hyps_CommitChecksItsTarget :
    let s := staging 0
    let st := s.setReg idSteer 1
    let ok (s : State) (c : Cmd) : Bool := (taking c s).mayStart c 0x0201 && resultOk (c.arg 0 8) 176 && c.target != wildTarget &&
      c.tray == s.dk.owner
    let far : State := { s with expo := { s.expo with pend := [pendSet 65537 (commit 65537 0) []] } }
    let wild := commit wildTarget 0
    (taking wild far).mayStart wild 0x0201 = true ∧ wild.target = wildTarget ∧ far.expo.pend.length < 4 ∧ far.trial.expo = true ∧
    far.curTick + 65536 < far.wildResolve (setAlign true (far.trialN far.trial != far.baseN far.trial) (far.trialN far.trial)) ∧
    ok s (commit 65538 0) = true ∧ s.canonical = true ∧ s.active = true ∧ s.pmu.trans = none ∧ s.expo.pend.length < 4 ∧
    s.trial.actions.contains 3 = false ∧ s.trial.expo = true ∧ (∀ e ∈ s.expo.pend, e.target < 65538) ∧ s.curTick + 65536 < ((65538 : Nat) : Int) ∧
    (commit 65538 0).target = 65538 ∧ ((65537 : Nat) : Int) ≤ s.curTick + 65536 ∧ ok st (commit 65537 0) = true ∧ st.canonical = true ∧
    (commit 65537 0).target % setAlign true (st.trialN st.trial != st.baseN st.trial) (st.trialN st.trial) ≠ 0 ∧ st.trialN st.trial ≤ 2 ∧
    ok s (commit 0 0) = true ∧ (commit 0 0).target % setAlign true (s.trialN s.trial != s.baseN s.trial) (s.trialN s.trial) = 0 ∧
    s.nominalNum (commit 0 0).target < (s.tickTime + 500000 * 2 ^ 30) * s.rateNum ∧ ok s (commit 2 0x740000000) = true ∧
    (s.tickTime + 500000 * 2 ^ 30) * s.rateNum ≤ s.nominalNum (commit 2 0x740000000).target ∧ s.curTick < (commit 2 0x740000000).target := by decide +kernel

theorem hyps_CommitIsAcceptedOrRefused :
    let s := staging 0
    let reason (c : Cmd) : Nat := s.commitReason c s.trial (setAlign s.trial.expo (decide (s.trialN s.trial ≠ s.baseN s.trial)) (s.trialN s.trial))
    let run : State := { s with dmc := { s.dmc with state := .run } }
    let none_ : State := { s with regs := { s.regs with staged := [] } }
    let dsc : State := { s with regs := { s.regs with staged := [(idDscCtrl, 0)] } }
    (taking (commit 0 0) s).mayStart (commit 0 0) 0x0201 = true ∧ s.canonical = true ∧ reason (commit 0 0) ≠ 0x0200 ∧
    reason (commit 2 0) = 0x0200 ∧ (s.trial.expo || false) = true ∧
    reason (commit 2 0x740000000) = 0x0200 ∧ s.resultRoom ((commit 2 0x740000000).arg 0 8) 176 = false ∧
    run.resultRoom ((commit 2 0x740000000).arg 0 8) 176 = true ∧
    (run.admission run.trial run.pmu.mode run.expo.stop).1 ≠ 0x0200 ∧ dsc.trialReg dsc.trial idDscCtrl ≠ dsc.baseReg dsc.trial idDscCtrl ∧
    dsc.trialN dsc.trial = dsc.baseN dsc.trial ∧ dsc.commitReason (commit 2 0) dsc.trial 1 = 0x0200 ∧
    (dsc.admission dsc.trial dsc.pmu.mode dsc.expo.stop).1 = 0x0200 ∧
    none_.trial.expo = false ∧ none_.trialN none_.trial = none_.baseN none_.trial ∧
    none_.trialReg none_.trial idDscCtrl = none_.baseReg none_.trial idDscCtrl ∧
    none_.commitReason (commit 2 0) none_.trial 1 = 0x0200 := by decide +kernel


theorem hyps_PendingSetsMeetTheirTargetRules :
    let s := taking (commit 2 0) { staging 0 with regs := { (staging 0).regs with staged := [(idDscCtrl, 0)] } }
    0 < s.rateDen ∧ 0 < s.rateNum ∧ s.expo.pend.Pairwise (fun a b => a.target < b.target) ∧
    (match exec (.commit (commit 2 0)) s with
      | .next t => t.expo.pend == s.expo.pend ++ [⟨2, commit 2 0, [(idDscCtrl, 0)], false, [0, 0, 0, 0, 0, 0, 0, 0], false, 0⟩]
      | _ => false) = true := by decide +kernel

theorem hyps_PendingSetsAreCancelledAndQueried :
    let e := pendSet 2 (commit 2 0) [0, 0, 0, 0, 0, 0, 0, 2]
    let s := staging 0
    let c (t : Fin 8) (k : Nat) : Cmd := ⟨t, entry 0x0202 0 0 (leBytes 8 k), 0⟩
    let q (k : Nat) : State := { s with dk := { s.dk with taken := [commit 2 0, c 0 k], started := [commit 2 0] }, expo := { s.expo with pend := [e, pendSet 0 (commit 0 0) []] } }
    let go (x : Cmd) (op : Nat) : Bool := (taking x s).mayStart x op
    go (c 1 2) 0x0202 = true ∧ (c 1 2).tray ≠ s.dk.owner ∧ go (c 0 2) 0x0202 = true ∧ (c 0 2).tray = s.dk.owner ∧
    (∀ e ∈ s.expo.pend, e.target ≠ (c 0 2).arg 0 8) ∧ (q 0).mayStart (c 0 0) 0x0202 = true ∧
    (q 0).expo.pend.find? (fun e => e.target == (c 0 0).arg 0 8) = some (pendSet 0 (commit 0 0) []) ∧ (q 0).inTime ((c 0 0).arg 0 8) = false ∧
    (q 2).mayStart (c 0 2) 0x0202 = true ∧ (q 2).expo.pend.find? (fun e => e.target == (c 0 2).arg 0 8) = some e ∧
    (q 2).inTime ((c 0 2).arg 0 8) = true ∧ (q 2).waits e.cmd = true ∧ go (cmd 0x0204 0 []) 0x0204 = true ∧
    go (cmd 0x0205 0 (leBytes 8 1)) 0x0205 = true ∧ resultOk ((cmd 0x0205 0 (leBytes 8 1)).arg 0 8) 176 = false ∧
    go (cmd 0x0205 0 (leBytes 8 0x7DFFFFF40)) 0x0205 = true ∧ resultOk ((cmd 0x0205 0 (leBytes 8 0x7DFFFFF40)).arg 0 8) 176 = true ∧
    s.resultRoom ((cmd 0x0205 0 (leBytes 8 0x7DFFFFF40)).arg 0 8) 176 = false ∧
    (dmcOn 0 0).resultRoom ((cmd 0x0205 0 (leBytes 8 0x7DFFFFF40)).arg 0 8) 176 = true := by
  decide +kernel

theorem hyps_DueSetTakesEffect :
    let e := pendSet 2 (commit 2 0) [2, 2, 2, 1, 2, 0, 0, 0]
    let s : State := { started (commit 2 0) (staging 0) with now := 1, expo := { (staging 0).expo with pend := [e] } }
    let s := s.setPlate 0 { PlateSlot.reset with back := .ready }
    let s := s.setPlate 1 { PlateSlot.reset with back := .opened, inForce := true }
    let s := s.setPlate 4 { PlateSlot.reset with back := .ready, readyAt := 1 }
    s.canonical = true ∧ s.up dCtrl = true ∧ s.locked 1 = true ∧ s.up dFab = true ∧ s.expo.pend = [e] ∧ s.dueNow 2 e = true ∧ s.dueNow 3 e = true ∧ e.hasExpo = true ∧
    e.target ≠ 3 ∧ e.actions.getD 0 0 = 2 ∧ (s.plate 0).back = .ready ∧ (s.plate 0).readyAt < s.now ∧ e.actions.getD 4 0 = 2 ∧ (s.plate 4).back = .ready ∧ s.now ≤ (s.plate 4).readyAt ∧ e.actions.getD 1 0 = 2 ∧ (s.plate 1).back ≠ .ready ∧
    (s.plate 1).inForce = true ∧ e.actions.getD 2 0 = 2 ∧ (s.plate 2).back ≠ .ready ∧ (s.plate 2).inForce = false ∧ e.actions.getD 3 0 = 1 ∧
    e.actions.getD 7 0 ≠ 1 ∧ e.actions.getD 7 0 ≠ 2 ∧ idPlate 8 0 ≤ idPlCtrl 0 ∧ evuReg idSteer = false ∧ s.waits e.cmd = true ∧
    s.dk.restarting = none := by decide +kernel

theorem hyps_TickArrivalRunsItsSteps :
    let m (k : Nat) : TickMsg := ⟨k, 0, 0, false, false⟩
    let c := cmd 0x0901 1 (leBytes 8 4)
    let s (k : Nat) (d : Bool) : State := { staging 0 with
      tick := { (staging 0).tick with toArrive := [m k, m 9] }, dk := { (staging 0).dk with tickWaits := [⟨c, 5⟩, ⟨c, 6⟩] }, expo := { (staging 0).expo with d2 := d } }
    (staging 0).tick.toArrive = [] ∧ (s 5 true).tick.toArrive = m 5 :: [m 9] ∧ (s 5 true).up dTime = true ∧ (s 5 true).up dCtrl = true ∧ (s 5 true).fw = true ∧
    (∃ w ∈ (s 5 true).dk.tickWaits, w.target ≤ (m 5).idx) ∧
    (s 5 true).expo.d2 = true ∧ (m 5).idx % 2 = 1 ∧ (s 5 false).expo.d2 = false ∧ (m 4).idx % 2 = 0 ∧ (s 4 true).tick.toArrive = m 4 :: [m 9] := by
  decide +kernel

/-! ### Witnesses: plates, the ingest aperture and the Fixers -/

/-- Slot 3 has that buffer as its back buffer in a state, and the fabric and the memory run. -/
def slot3 (b : BackState) (n : Nat) : State :=
  (dmcOn 0 0).setPlate 3 { PlateSlot.reset with bufs := (PlateSlot.reset.bufs).set 1 (buf8 n), back := b }

/-- A PLATE_OPEN of slot p. -/
def openCmd (p typ fmt flags w h : Nat) (res : Nat) : Cmd :=
  cmd 0x0301 2 ([BitVec.ofNat 8 p, BitVec.ofNat 8 typ, BitVec.ofNat 8 fmt, BitVec.ofNat 8 flags] ++ leBytes 2 w ++ leBytes 2 h ++ [1, 1] ++
    List.replicate 6 0 ++ leBytes 8 res ++ List.replicate 8 0)

/-- A block in a Fixer at an address, for slot 3. -/
def fixBlk (a : Nat) (st : FixStage) : FixBlk := ⟨0, 3, 1, 0, 0, a, 8192, .e8, false, List.replicate 512 0, 0, st⟩

def fixing (l : List FixBlk) (s : State) : State := s.setFixer 0 { s.fixers[(0 : Fin 8)] with blks := l }

theorem hyps_PlateOpenReservesTheBackBuffer :
    let s := dmcOn 0 0
    let ok (s : State) (c : Cmd) : Bool := (taking c s).mayStart c 0x0301
    let fine := openCmd 3 0 4 0 64 64 0
    let pend : State := { s with expo := { s.expo with pend := [pendSet 2 (commit 2 0) [0, 0, 0, 2]] } }
    let o : Opening := ⟨fine, geom8, 0, 0, geom8.reserved⟩
    let opening (n : Nat) : State := (started fine (slot3 .opening n)).setPlate 3 { (slot3 .opening n).plate 3 with opening := some o }
    let resets : State := started (cmd 0x0007 2 [4]) s
    let paused : State := { opening 0 with dmc := { (opening 0).dmc with pauses := [(0, 0, 30)] } }
    resets.fabClosing = true ∧ s.fabClosing = false ∧ (opening 0).resultRoom (o.cmd.arg 0x10 8) 64 = true ∧
    (∀ pl ∈ o.geom.place o.base, (opening 0).planeFree pl = true) ∧
    (∃ pl ∈ o.geom.place o.base, paused.planeFree pl = false) ∧ (opening 0).dmcRuns = true ∧ ((opening 0).back 3).hasData = false ∧
    ok s (openCmd 8 0 4 0 64 64 0) = true ∧ openFormatOk (openCmd 8 0 4 0 64 64 0) = false ∧ ok s (openCmd 3 0 4 0 63 64 0) = true ∧
    openFormatOk (openCmd 3 0 4 0 63 64 0) = true ∧ (openGeom (openCmd 3 0 4 0 63 64 0)).sizeOk = false ∧
    ok s (openCmd 3 0 2 0 16384 16384 0) = true ∧ (openGeom (openCmd 3 0 2 0 16384 16384 0)).sizeOk = true ∧
    s.placeBack 3 (openGeom (openCmd 3 0 2 0 16384 16384 0)).reserved = some 0 ∧
    ok s (openCmd 3 0 4 4 64 64 0) = true ∧ (openCmd 3 0 4 4 64 64 0).arg 3 1 / 2 % 4 = 2 ∧ (s.plate 3).inForce = false ∧
    openFormatOk fine = true ∧ (openGeom fine).sizeOk = true ∧ s.placeBack 3 (openGeom fine).reserved = some 0 ∧ ok s fine = true ∧
    fine.arg 3 1 / 2 % 4 = 0 ∧ s.pendingNew 3 = false ∧ (s.plate 3).back ≠ .opening ∧ resultOk (fine.arg 0x10 8) 64 = true ∧
    ok pend fine = true ∧ pend.pendingNew 3 = true ∧ ok (slot3 .opening 0) fine = true ∧ ((slot3 .opening 0).plate 3).back = .opening ∧
    resultOk ((openCmd 3 0 4 0 64 64 1).arg 0x10 8) 64 = false ∧ ok s (openCmd 3 0 4 0 64 64 1) = true ∧
    (opening 1).canonical = true ∧ ((opening 1).plate 3).opening = some o ∧ o.size = o.geom.reserved ∧ o.init ≠ 2 ∧ (opening 1).fw = true ∧
    (opening 1).fabRuns = true ∧ (opening 1).dmc.state = .run ∧ 0 < ((opening 1).back 3).credits ∧ ((opening 0).back 3).credits = 0 ∧
    (opening 0).canonical = true ∧ (∀ f : Fin 8, ∀ b ∈ ((opening 0).fixers[f]).blks, b.ofBuf 3 ((opening 0).plate 3).backIx = false) ∧
    (∀ x : Fin 2, ∀ j ∈ ((opening 0).contact.qs[x]).jobs, j.complete = true) ∧ (opening 0).waits o.cmd = true := by decide +kernel

theorem hyps_PlatesAreSealedReadAndLoaded :
    let go (s : State) (op : Nat) (cls : Nat) (pay : List Byte) : Bool := (taking (cmd op cls pay) s).mayStart (cmd op cls pay) op
    let s := slot3 .opened 0
    let load (a n kind t : Nat) : List Byte := leBytes 8 a ++ leBytes 4 n ++ [BitVec.ofNat 8 kind, BitVec.ofNat 8 t] ++ List.replicate 10 0
    let clear (s : State) : Prop := (s.back 3).credits = 0 ∧ ∀ f : Fin 8, ∀ b ∈ (s.fixers[f]).blks, b.ofBuf 3 (s.plate 3).backIx = false
    go s 0x0302 0 [8] = true ∧ 8 ≤ (cmd 0x0302 0 [8]).arg 0 1 ∧ go s 0x0302 0 [3] = true ∧ (cmd 0x0302 0 [3]).arg 0 1 = (3 : Fin 8).val ∧
    (s.plate 3).back = .opened ∧ ((slot3 .sealed 0).plate 3).back ≠ .opened ∧ clear s ∧ ¬ clear (slot3 .opened 1) ∧ s.canonical = true ∧
    s.up dFab = true ∧ go s 0x0303 0 [8, 0] = true ∧ 8 ≤ (cmd 0x0303 0 [8, 0]).arg 0 1 ∧ go s 0x0303 0 [3, 5] = true ∧
    4 < (cmd 0x0303 0 [3, 5]).arg 1 1 ∧ go s 0x0303 0 [7, 0] = true ∧ (cmd 0x0303 0 [7, 0]).arg 0 1 < 8 ∧ (cmd 0x0303 0 [7, 0]).arg 1 1 = 0 ∧
    go s 0x0303 0 [3, 1] = true ∧ 1 ≤ (cmd 0x0303 0 [3, 1]).arg 1 1 ∧ (s.plate 3).back ≠ .closed ∧
    (s.back 3).plane ((cmd 0x0303 0 [3, 1]).arg 1 1 - 1) = (geom8.place 0)[0]? ∧ (geom8.place 0).length = 1 ∧
    go s 0x0304 2 (load 0 64 0 3) = true ∧ s.fabRuns = true ∧ hostRange ((cmd 0x0304 2 (load 0 64 0 3)).arg 0 8) ((cmd 0x0304 2 (load 0 64 0 3)).arg 8 4) = false ∧
    go s 0x0304 2 (load 0x740000000 64 0 11) = true ∧
    hostRange ((cmd 0x0304 2 (load 0x740000000 64 0 11)).arg 0 8) ((cmd 0x0304 2 (load 0x740000000 64 0 11)).arg 8 4) = true ∧
    s.ytcTarget (cmd 0x0304 2 (load 0x740000000 64 0 11)) = none ∧ go s 0x0304 2 (load 0x740000000 64 0 3) = true ∧
    s.fabClosing = false ∧ s.up dCtrl = true ∧ s.locked 1 = true ∧
    65535 ≤ ((slot3 .opened 65535).back 3).credits ∧ (s.back 3).credits < 65535 ∧
    s.ytcTarget (cmd 0x0304 2 (load 0x740000000 64 0 3)) = (geom8.place 0)[0]?.map (.plate 3) := by decide +kernel

theorem hyps_ApertureWritesAssembleOrWait :
    let x (a : Nat) : Ist := ⟨1, [1, 1] ++ leBytes 2 2 ++ leBytes 4 0 ++ leBytes 8 a, [1, 2]⟩
    let w (a : Nat) (s : State) : State := s.setUcie 1 { s.ucie[(1 : Fin 2)] with waiting := [(x a, true)] }
    let s := w 514 (slot3 .opened 0)
    let rest : State := { w 514 (slot3 .opened 0) with pmu := { (slot3 .opened 0).pmu with mode := .standby } }
    let shown : State := w 514 ((dmcOn 0 0).setPlate 3 { PlateSlot.reset with bufs := (PlateSlot.reset.bufs).set 0 (buf8 0), inForce := true })
    let pl : Plane := ⟨0, .e8, 64, 64, false, 0, 4096⟩
    let full (n : Nat) (l : List FixBlk) : State := w 2 (fixing (List.replicate n (fixBlk 65536 .filling) ++ l) (slot3 .opened 0))
    let part : State := w 2 (fixing [fixBlk 0 .filling] (slot3 .opened 0))
    let busy : List FixBlk := List.replicate 32 (fixBlk 65536 .filling)
    let none_ (n : Nat) : State := if n = 0 then { w 2 (slot3 .opened 0) with fixers := ((Vector.replicate 8 ⟨0, busy, Vector.replicate 7 none⟩).set 0 ⟨0, busy.take 31, Vector.replicate 7 none⟩).set 1 ⟨0, fixBlk 65536 .complete :: busy, Vector.replicate 7 none⟩ }
      else w 2 (slot3 .opened n)
    s.canonical = true ∧ s.up dCtrl = true ∧ s.locked 1 = true ∧ (s.ucie[(1 : Fin 2)]).waiting = [(x 514, true)] ∧ (x 514).m = 1 ∧ istType (x 514) = 1 ∧
    istSpace (x 514) = 1 ∧ (x 514).data.length = istLen (x 514) ∧ istAddr (x 514) = 514 ∧ istAddr (x 0x5FFFFFFFE) = 0x5FFFFFFFE ∧
    rest.active = false ∧ rest.canonical = true ∧ s.active = true ∧ inHost 514 2 = false ∧ inHost 0x5FFFFFFFE 2 = false ∧
    (w 0x5FFFFFFFE (slot3 .opened 0)).poolHit 0x5FFFFFFFE = .outside ∧ shown.poolHit 514 = .frontOf 3 ∧ shown.canonical = true ∧
    (w 514 (slot3 .sealed 0)).poolHit 514 = .notOpen 3 ∧ (w 4111 (slot3 .opened 0)).poolHit 4111 = .oob 3 ∧
    s.poolHit 514 = .plane 3 1 pl 1 2 ∧ s.fabRuns = true ∧ s.fabClosing = false ∧
    (∀ b ∈ (s.fixers[fixerOf 512]).blks, ¬ (b.filling = true ∧ b.addr = 512)) ∧ (full 31 []).poolHit 2 = .plane 3 1 pl 0 2 ∧
    part.poolHit 2 = .plane 3 1 pl 0 2 ∧ (part.fixers[(0 : Fin 8)]).blks.findIdx? (fun b => b.filling && b.addr == 0) = some 0 ∧
    (part.fixers[(0 : Fin 8)]).blks[0]? = some (fixBlk 0 .filling) ∧
    (((none_ 0).fixers[(0 : Fin 8)]).blks.filter FixBlk.holds).length < 32 ∧ 256 ≤ (none_ 0).occupancy 24 ∧ (none_ 0).poolHit 2 = .plane 3 1 pl 0 2 ∧ (none_ 65535).poolHit 2 = .plane 3 1 pl 0 2 ∧
    65535 ≤ ((none_ 65535).buf 3 1).credits ∧
    fixerOf 0 = 0 ∧ (∀ b ∈ ((full 32 []).fixers[(0 : Fin 8)]).blks, ¬ (b.filling = true ∧ b.addr = 0)) ∧
    (((full 31 []).fixers[(0 : Fin 8)]).blks.filter FixBlk.holds).length < 32 ∧ (full 31 []).occupancy 24 < 256 ∧
    ((full 31 []).buf 3 1).credits < 65535 ∧ 32 ≤ (((full 31 [fixBlk 65536 .complete]).fixers[(0 : Fin 8)]).blks.filter FixBlk.holds).length ∧
    (∃ b ∈ (((full 31 [fixBlk 65536 .complete]).fixers[(0 : Fin 8)]).blks.filter FixBlk.holds), b.filling = false) ∧
    32 ≤ (((full 32 []).fixers[(0 : Fin 8)]).blks.filter FixBlk.holds).length ∧
    (∀ b ∈ (((full 32 []).fixers[(0 : Fin 8)]).blks.filter FixBlk.holds), b.filling = true) := by decide +kernel

theorem hyps_FixersCodeHandOnAndStore :
    let c : Coded := codedRaw (List.replicate 512 1) false false
    let s (st : FixStage) : State := fixing [fixBlk 512 st, fixBlk 1024 .filling] (slot3 .sealed 1)
    let b := fixBlk 512 (.coded c 0)
    let ask (r : DramReq) : DReq := ⟨0, 0, r, .be, .be, false, 0, false, false, 0, false, some 0, none⟩
    let ent := b.entryStore 0
    let p1 := pcOf 512
    let p2 := pcOf ent.addr
    let w := ((s (.coded c 0)).setPc p1 { PseudoCh.reset with waiting := [ask (b.slotStore c)] }).setPc p2
      { PseudoCh.reset with waiting := [ask ent] }
    let u : StoreUnit := ⟨512, 8192, c.stored, 5, []⟩
    let r : DReq := { ask (b.slotStore c) with issued := true, unit := some u }
    let done := queueing p1 [r] (slot3 .sealed 1)
    (s .complete).canonical = true ∧ (s .complete).fabRuns = true ∧
    ((s .complete).fixers[(0 : Fin 8)]).blks = fixBlk 512 .complete :: [fixBlk 1024 .filling] ∧ (fixBlk 512 .complete).stage = .complete ∧
    (codeBlock .e8 15 [] (List.replicate 512 0) true).mismatch = true ∧ (s .complete).up dCtrl = true ∧
    ((s .merging).fixers[(0 : Fin 8)]).blks = fixBlk 512 .merging :: [fixBlk 1024 .filling] ∧ (s .merging).reqsLeft 0 = false ∧
    (w.fixers[(0 : Fin 8)]).blks = b :: [fixBlk 1024 .filling] ∧ w.dmcRuns = true ∧ (w.grantPair b c 0).isSome = true ∧ w.canonical = true ∧
    w.fabRuns = true ∧ p1 ≠ p2 ∧ (w.pc p1).turn .be = some (ask (b.slotStore c)) ∧ (w.pc p2).turn .be = some (ask ent) ∧
    (ask ent).owner = some b.tag ∧ ((w.pc p1).tokenFor .be).isSome = true ∧ ((w.pc p2).tokenFor .be).isSome = true ∧
    ((s (.handed c 0)).fixers[(0 : Fin 8)]).blks = fixBlk 512 (.handed c 0) :: [fixBlk 1024 .filling] ∧ (s (.handed c 0)).reqsLeft 0 = false ∧
    ((s (.handed c 0)).plate 3).back = .sealed ∧ (fixBlk 512 (.handed c 0)).buf = ((s (.handed c 0)).plate 3).backIx ∧
    ((s (.handed c 0)).back 3).credits = 1 ∧
    done.dmcRuns = true ∧ done.canonical = true ∧ ((done.pc p1).queued.find? fun e => e.num == r.num) = some r ∧ r.issued = true ∧
    r.owner = some 0 ∧ r.unit = some u ∧ done.clean r.req.addr r.req.len = true ∧
    (done.setPc p1 { done.pc p1 with queued := (done.pc p1).queued.erase r }).storesLeft 0 = false ∧
    u.addr + u.stored.length ≤ u.ent ∧ u.entry < 2 ^ 16 := by decide +kernel

theorem hyps_StoredBlocksDecodeExactly :
    let raw : List Byte := List.replicate 512 5
    let ramp : List Byte := (List.range 512).map fun i => BitVec.ofNat 8 (i * i)
    raw.length = 512 ∧ ramp.length = 512 ∧ (codeBlock .e8 15 [] raw false).mode = 2 ∧ (codeBlock .e8 15 [] raw true).mismatch = true ∧
    bit (16 : Word) 4 = true ∧ bit (0 : Word) 0 = false ∧ bit (0 : Word) 1 = false ∧ bit (0 : Word) 2 = false ∧ bit (0 : Word) 3 = false := by
  decide +kernel

/-! ### Witnesses: the raster -/

/-- Rasters of 2 by 2 hogels a quadrant after 4 blanking lines: 36 line periods; the Easel of quadrant 1 has fields x. -/
def drawing (x : Easel) : State :=
  let s := (lit (dmcOn 0 0)).setReg idRasterSize (BitVec.ofNat 32 (2 + 64 * 2 + 65536 * 4))
  (s.setReg idRasterGuard 0).setEasel 1 x

/-- A raster sub-frame after line period n. -/
def atPeriod (n : Nat) : Easel := { Easel.reset with st := .running, period := n, cyc := 36 }

def portUp (s : State) : State := { s with ports := s.ports.set 1 { s.ports[(1 : Fin 4)] with st := .up } }

theorem hyps_LinePeriodsSendOrAbort :
    let s (x : Easel) : State := portUp { drawing x with now := 1000 }
    let down (x : Easel) : State := { drawing x with now := 1000 }
    let early : State := { drawing (atPeriod 3) with now := 0 }
    let rows (m : Nat) : Easel := { atPeriod 10 with rows := [(0, m)], strips := [⟨0, 1, none, none, []⟩] }
    let gone (n : Nat) (a : Option (Nat × Nat)) : Easel := { atPeriod n with st := .aborted, abort := a }
    (s (atPeriod 3)).canonical = true ∧ (s (atPeriod 3)).easelRuns 1 = true ∧ early.periodDue 1 4 = false ∧ (s (atPeriod 36)).lt < 37 ∧
    Easel.reset.st = .idle ∧ (s Easel.reset).easelRuns 1 = true ∧ (s Easel.reset).periodDue 1 1 = true ∧ 1 ≤ (s Easel.reset).lt ∧
    (s (atPeriod 3)).locked 1 = true ∧
    (s (atPeriod 35)).periodDue 1 36 = true ∧ (atPeriod 35).st = .running ∧ 36 = (s (atPeriod 35)).lt ∧
    (s (atPeriod 0)).periodDue 1 1 = true ∧ 1 < (s (atPeriod 0)).lt ∧ 1 + 2 < (s (atPeriod 0)).vblank ∧
    (s (atPeriod 33)).periodDue 1 34 = true ∧ 34 < (s (atPeriod 33)).lt ∧ (s (atPeriod 33)).vblank ≤ 34 ∧
    16 * (s (atPeriod 33)).qh ≤ 34 + 2 - (s (atPeriod 33)).vblank ∧ ((s (atPeriod 33)).ports[(1 : Fin 4)]).st = .up ∧
    (s (rows 1)).canonical = true ∧ (s (rows 1)).periodDue 1 11 = true ∧ (s (rows 1)).vblank ≤ 11 + 2 ∧
    11 + 2 - (s (rows 1)).vblank < 16 * (s (rows 1)).qh ∧ ((s (rows 1)).ports[(1 : Fin 4)]).st = .up ∧
    mapFind (rows 3).rows ((11 + 2 - (s (rows 3)).vblank) / 16) = some (2 ^ (s (rows 3)).qw - 1) ∧
    mapFind (rows 1).rows ((11 + 2 - (s (rows 1)).vblank) / 16) ≠ some (2 ^ (s (rows 1)).qw - 1) ∧
    2 + 2 - (s (atPeriod 1)).vblank = 0 ∧ (s (atPeriod 1)).vblank ≤ 2 + 2 ∧ 2 < (s (atPeriod 1)).vblank ∧ (s (atPeriod 1)).up dCtrl = true ∧
    (down (atPeriod 33)).periodDue 1 34 = true ∧ ((down (atPeriod 33)).ports[(1 : Fin 4)]).st ≠ .up ∧ (down (atPeriod 3)).vblank ≤ 4 ∧
    (down (atPeriod 3)).periodDue 1 4 = true ∧ (down (gone 7 (some (5, 1)))).periodDue 1 8 = true ∧
    (s (gone 2 (some (5, 1)))).periodDue 1 3 = true ∧ 3 < (s (gone 2 (some (5, 1)))).vblank ∧
    (s (gone 7 (some (5, 1)))).canonical = true ∧ (s (gone 7 (some (5, 1)))).periodDue 1 8 = true ∧ (gone 7 (some (5, 1))).abort = some (5, 1) ∧
    8 - (s (gone 7 (some (5, 1)))).vblank < 5 ∧ (s (gone 8 (some (5, 1)))).periodDue 1 9 = true ∧ (s (gone 8 (some (5, 1)))).vblank ≤ 9 ∧
    5 ≤ 9 - (s (gone 8 (some (5, 1)))).vblank ∧ (gone 8 none).abort = none ∧ (s (gone 8 none)).periodDue 1 9 = true := by decide +kernel

theorem hyps_StripsAreCulledDispatchedAndDelivered :
    let u : Strip := ⟨0, 1, none, none, []⟩
    let k : Strip := ⟨0, 0, some [], none, []⟩
    let h (n : Nat) : Strip := ⟨0, 0, some [], some n, []⟩
    let s (l : List Strip) : State := drawing { atPeriod 3 with strips := l }
    let busy := s (((List.range 48).map fun i => h (24 + i / 2)) ++ [k])
    (s [k, u]).maskRuns = true ∧ ((s [k, u]).easels[(1 : Fin 4)]).st = .running ∧ ((s [k, u]).easels[(1 : Fin 4)]).strips = [k] ++ u :: [] ∧
    (∀ p ∈ [k], p.marks ≠ none) ∧ u.marks = none ∧ fld (((s [k, u]).setReg (idMaskCtrl 1) 0).reg (idMaskCtrl 1)) 2 0 = 0 ∧
    mapWf (fun _ => 0) (s [k, u]).regs.live = true ∧ ((s [u, k]).easels[(1 : Fin 4)]).strips = [u] ++ k :: [] ∧
    (∀ p ∈ [u], p.marks = none ∨ p.engine ≠ none) ∧ k.marks ≠ none ∧ k.engine = none ∧ 24 / 24 = (1 : Fin 4).val ∧
    (s [u, k]).engineTakes 24 = true ∧ (((s [u, k]).easels[(1 : Fin 4)]).strips.filter fun x => x.engine == some 24).length < 2 ∧
    (List.range 24).all (fun i => 2 ≤ ((busy.easels[(1 : Fin 4)]).strips.filter fun x => x.engine == some (24 + i)).length) = true ∧
    ((s [h 47]).easels[(1 : Fin 4)]).strips.find? (fun x => x.engine == some (47 : Fin 96).val) = some (h 47) ∧
    (47 : Fin 96).val / 24 = (1 : Fin 4).val ∧ (s [h 47]).engineTakes 47 = true ∧ (s [h 47]).easelRuns 1 = true := by decide +kernel

/-- Engine 40 of quadrant 1 holds a strip whose region has residuals, and the entries of its residual blocks are w. -/
def residual (w : Nat) (texels : List (Nat × Nat)) : State :=
  let s := drawing { atPeriod 3 with strips := [⟨0, 1, some [], some 40, []⟩] }
  let s := s.setReg idRayCtrl 1
  let s : State := { s with rayMap := { s.rayMap with recs := [(1, padTo 1088 (List.replicate 28 0 ++ [1]))] },
                            caches := { s.caches with texels := s.caches.texels.set 40 texels } }
  s.dramWrite (s.residPlane.ent + 48) (leBytes 2 w)

theorem hyps_SentLinesReturnAndFetchesReport :
    let e (st : RasterState) (sent next : Nat) : Easel := { atPeriod 10 with st := st, sentLines := sent, nextRow := next, corrected := 9 }
    let s (x : Easel) : State := drawing x
    let port : Port := { Port.reset with st := .up, clk := ⟨some 0, 8, 0, 0, 255, some 100⟩ }
    let ends (t : Nat) : State := { s (e .running 6 2) with now := t, ports := (s (e .running 6 2)).ports.set 1 port }
    let d := residual (mkEntry 2 0 false false false) []
    let bad := residual 0xFFFF []
    let lost : State := { d with dmc := { d.dmc with poison := [(d.residPlane.ent / 8 + 6, ())] } }
    let x : Strip := ⟨0, 1, some [], some 40, []⟩
    (s (e .running 7 2)).easelRuns 1 = true ∧ (e .running 7 2).st ≠ .idle ∧ (s (e .running 7 2)).linesOut 1 ≤ 7 ∧
    6 < (s (e .running 6 2)).linesOut 1 ∧ ((s (e .running 6 2)).ports[(1 : Fin 4)]).lineOut 0 = true ∧
    6 < (ends 0).linesOut 1 ∧ ¬ (6 + 1 < (ends 0).linesOut 1) ∧ ((ends 0).ports[(1 : Fin 4)]).lineOut (ends 0).now = false ∧
    ((ends 1000).ports[(1 : Fin 4)]).lineOut (ends 1000).now = true ∧ (ends 0).easelRuns 1 = true ∧
    5 + 1 < (s (e .running 5 2)).linesOut 1 ∧ (s (e .running 6 2)).qh ≤ 2 ∧ (e .aborted 6 1).st = .aborted ∧
    6 < (s (e .aborted 6 1)).linesOut 1 ∧ 1 < (s (e .running 6 1)).qh ∧ 6 < (s (e .running 6 1)).linesOut 1 ∧
    16 * (e .running 6 1).nextRow - (6 + 1) ≤ 48 ∧ 48 < 16 * (e .running 6 4).nextRow - (6 + 1) ∧
    d.room (.fetch 1) ((d.residPlane.ent + 48) / 64 * 64) 64 = true ∧ d.room (.fetch 1) (d.residPlane.addr + 512 * 24) (d.slotLen (d.residPlane.ent + 48)) = true ∧
    d.badBeats ((d.residPlane.ent + 48) / 64 * 64) 64 = [] ∧ d.badBeats (d.residPlane.addr + 512 * 24) (d.slotLen (d.residPlane.ent + 48)) = [] ∧
    bad.badBeats ((d.residPlane.ent + 48) / 64 * 64) 64 = [] ∧ bad.badBeats (d.residPlane.addr + 512 * 24) (bad.slotLen (d.residPlane.ent + 48)) = [] ∧
    bad.room (.fetch 1) (d.residPlane.addr + 512 * 24) (bad.slotLen (d.residPlane.ent + 48)) = true ∧
    (residual 0 []).dmcRuns = true ∧ ({ d with dmc := { d.dmc with pauses := [((pcOf d.residPlane.addr).val / 2, 0, 30)] } } : State).room (.fetch 1) ((d.residPlane.ent + 48) / 64 * 64) 64 = false ∧
    d.canonical = true ∧ (40 : Fin 96).val / 24 = 1 ∧ (40 : Fin 96).val / 8 = 5 ∧ d.fetchPlane .residual = some d.residPlane ∧
    d.fetchFor 40 .residual 24 = some x ∧ d.fetchFor 40 .residual 23 = none ∧
    (d.caches.texels[(40 : Fin 96)]).any (fun l => l.1 == d.residPlane.addr + 512 * 24) = false ∧
    ((residual 0 [(d.residPlane.addr + 512 * 24, 512)]).caches.texels[(40 : Fin 96)]).any (fun l => l.1 == d.residPlane.addr + 512 * 24) = true ∧
    d.up (dEc 5) = true ∧ d.locked 4 = true ∧ d.dmc.state = .run ∧
    (match d.readPlane d.residPlane 24 with | .bytes _ => true | _ => false) = true ∧
    ((d.caches.texels[(40 : Fin 96)]).map Prod.snd).sum + texelBytes .residual d.residPlane ≤ 262144 ∧
    bad.canonical = true ∧ bad.fetchFor 40 .residual 24 = some x ∧ bad.readPlane bad.residPlane 24 = .invalid ∧ lost.canonical = true ∧
    lost.fetchFor 40 .residual 24 = some x ∧ lost.readPlane lost.residPlane 24 = .uncorr ∧ lost.up dCtrl = true ∧ lost.locked 1 = true ∧ lost.up dFab = true := by
  decide +kernel

/-- Every row of the table of R243 is reached by some lead. -/
theorem hyps_UrgencyFollowsTheWatermarks :
    let wm : Word := BitVec.ofNat 32 (4 + 256 * 16 + 65536 * 2)
    let h : Strip := ⟨0, 0, some [], some 47, []⟩
    let s (m : Nat) : State := { drawing { atPeriod 10 with strips := [h], rows := [(0, m)] } with now := 1000 }
    let goes (s : State) : Bool := match exec (.linePeriodStart 1) s with | .next t => (t.easels[(1 : Fin 4)]).st == .running | _ => false
    (1 : Fin 4).val = (47 : Fin 96).val / 24 ∧ ((s 2).easels[(1 : Fin 4)]).strips.find? (fun x => x.engine == some (47 : Fin 96).val) = some h ∧
    (s 2).engineTakes 47 = true ∧ (s 2).easelRuns 1 = true ∧ ((s 2).easels[(1 : Fin 4)]).st = .running ∧ 2 ||| 2 ^ h.m = 2 ^ (s 2).qw - 1 ∧
    0 ||| 2 ^ h.m ≠ 2 ^ (s 0).qw - 1 ∧ (s 3).periodDue 1 11 = true ∧ 11 < (s 3).lt ∧ goes (portUp { drawing (atPeriod 0) with now := 1000 }) = true ∧
    (3 : Int) < (fld wm 7 0 : Nat) ∧ ((fld wm 7 0 : Nat) : Int) ≤ 4 ∧ (15 : Int) < ((max (fld wm 15 8) (fld wm 7 0 + 1) : Nat) : Int) ∧
    (((max (fld wm 15 8) (fld wm 7 0 + 1) : Nat) : Int)) ≤ 16 ∧
    (((max (fld wm 15 8) (fld wm 7 0 + 1) : Nat) : Int)) + ((fld wm 19 16 : Nat) : Int) = 18 ∧
    ((fld wm 7 0 : Nat) : Int) + ((fld wm 19 16 : Nat) : Int) = 6 ∧
    urgencyStep wm 3 .normal = .panic ∧ urgencyStep wm 15 .normal = .urgent ∧ urgencyStep wm 5 .panic = .panic ∧
    urgencyStep wm 17 .urgent = .urgent ∧ urgencyStep wm 18 .panic = .normal := by decide +kernel

theorem hyps_StripsLinesLoupeAndBands :
    let h : Strip := ⟨0, 0, some [1], some 47, []⟩
    let s : State := { drawing { atPeriod 3 with strips := [h] } with now := 1000 }
    let solid : State := { s with expo := { s.expo with pattern := ⟨1, 2, 5, 6, 7⟩ } }
    let row : State := portUp { drawing { atPeriod 10 with rows := [(0, 3)], checked := 1 } with now := 1000 }
    let flat : State := { row with expo := { row.expo with stop := 3 } }
    let loupe (y : Nat) (s : State) : State := s.setReg (idLoupe 1 0 1) (BitVec.ofNat 32 (65536 * y))
    let sent : State := drawing { atPeriod 20 with checked := 1, sentLines := 8 }
    let at_ (t : Int) (first : Bool) (b : Band) : State :=
      let s := portUp (drawing { Easel.reset with band := b, bandFirst := first })
      { s with corr := { s.corr with bounds := [0, 1000] }, rayMap := { s.rayMap with coeff := { s.rayMap.coeff with tRef := t } } }
    let t (s : State) : Int := let l := (s.quadRegions 1).map s.regionTemp
      l.foldl max (l.headD s.rayMap.coeff.tRef)
    let flat_ : State := { at_ 0 true ⟨0, 0, 0, 0⟩ with pmu := { (at_ 0 true ⟨0, 0, 0, 0⟩).pmu with mode := .flat } }
    s.canonical = true ∧ (1 : Fin 4).val = (47 : Fin 96).val / 24 ∧ (5 : Fin 12).val = (47 : Fin 96).val / 8 ∧
    (s.easels[(1 : Fin 4)]).strips.find? (fun x => x.engine == some (47 : Fin 96).val) = some h ∧ s.engineTakes 47 = true ∧ s.easelRuns 1 = true ∧
    (s.easels[(1 : Fin 4)]).st = .running ∧ s.patterned 1 = false ∧ solid.canonical = true ∧ solid.patterned 1 = true ∧
    solid.expo.pattern.code = 1 ∧ (∀ m ∈ [1, 3], m ≠ 0) ∧
    row.canonical = true ∧ row.easelRuns 1 = true ∧ (row.easels[(1 : Fin 4)]).st = .running ∧ row.periodDue 1 11 = true ∧ 11 < row.lt ∧
    row.vblank ≤ 11 + 2 ∧ 11 + 2 - row.vblank < 16 * row.qh ∧ (row.ports[(1 : Fin 4)]).st = .up ∧
    mapFind (row.easels[(1 : Fin 4)]).rows ((11 + 2 - row.vblank) / 16) = some (2 ^ row.qw - 1) ∧ row.flatNow = false ∧
    flat.flatNow = true ∧ flat.canonical = true ∧ flat.periodDue 1 11 = true ∧
    sent.canonical = true ∧ (sent.easels[(1 : Fin 4)]).st ≠ .idle ∧ (sent.easels[(1 : Fin 4)]).checked.getLsbD 0 = true ∧
    fld ((loupe 8 sent).reg (idLoupe 1 0 1)) 31 16 ≤ 8 ∧ ¬ fld ((loupe 9 sent).reg (idLoupe 1 0 1)) 31 16 ≤ 8 ∧
    (loupe 8 sent).canonical = true ∧ ~~~ (sent.easels[(1 : Fin 4)]).crcs[(0 : Fin 16)] ≠ (loupe 8 sent).reg (idLoupe 1 0 3) ∧
    sent.up dCtrl = true ∧ sent.locked 1 = true ∧ sent.up (dEasel 1) = true ∧
    flat_.rasterStarts 1 = true ∧ flat_.pmu.mode ≠ .field ∧ flat_.pmu.mode ≠ .service ∧ (at_ 0 true ⟨0, 0, 0, 0⟩).pmu.mode = .field ∧
    (at_ 0 true ⟨0, 0, 0, 0⟩).rasterStarts 1 = true ∧ (at_ 0 true ⟨0, 0, 0, 0⟩).canonical = true ∧
    ((at_ 0 true ⟨0, 0, 0, 0⟩).easels[(1 : Fin 4)]).bandFirst = true ∧ t (at_ 0 false ⟨0, 0, 4, 0⟩) = 0 ∧ t (at_ 743 false ⟨2, 0, 4, 0⟩) = 743 ∧
    (at_ 0 false ⟨0, 0, 4, 0⟩).rasterStarts 1 = true ∧ boundCount [0, 1000] 0 0 = 1 ∧ boundCount [0, 1000] 743 0 = 1 ∧
    boundCount [0, 1000] 743 256 = 1 ∧ boundCount [0, 1000] 744 256 = 2 ∧ boundCount [0, 1000] 744 0 = 1 := by decide +kernel
/-! ### Witnesses: Contact and Refocus -/

/-- A LINEAR surface of bytes with a pitch of 64 at the start of the host area, and a FILL of w by 1 elements of it. -/
def linear8 : Nat := 8 * 2 ^ 40 + 0x7400000
def fillDesc (w flags : Nat) : List Byte :=
  leBytes 4 flags ++ leBytes 2 0 ++ leBytes 2 0 ++ leBytes 2 w ++ leBytes 2 1 ++ leBytes 4 0 ++ leBytes 8 linear8 ++ List.replicate 24 7

/-- A FILL into the back buffer of slot 3. -/
def fillPlate : List Byte :=
  leBytes 4 0 ++ leBytes 4 0 ++ leBytes 2 8 ++ leBytes 2 1 ++ leBytes 4 0 ++ leBytes 8 (2 ^ 63 + 16 * 3) ++ List.replicate 24 7

/-- A job of operation op, 8 by 1 elements from the source with that surface reference to linear8. -/
def opDesc (op src : Nat) : List Byte :=
  leBytes 4 op ++ leBytes 4 0 ++ leBytes 2 8 ++ leBytes 2 1 ++ leBytes 4 0 ++ leBytes 8 linear8 ++ leBytes 8 src ++ List.replicate 16 7

/-- A job in a queue. -/
def ctJob (d : List Byte) (st pass : Bool) (ticks : Nat) : CtJob :=
  ⟨5, d, 0, ⟨none, 0x740000000, 0x740000008, 0, 1⟩, false, none, [], st, 1, false, none, pass, ticks, 0, false, false, false, false⟩

theorem hyps_ContactJobsQueueStartAndComplete :
    let go (s : State) (op : Nat) (pay : List Byte) : Bool := (taking (cmd op 0 pay) s).mayStart (cmd op 0 pay) op
    let s := slot3 .opened 0
    let q (l : List CtJob) : State := s.setCtQ 0 ⟨6, l⟩
    let off : State := { s with pmu := { s.pmu with mode := .standby } }
    let stop : State := { s with contact := { s.contact with accepting := false } }
    let full := q (List.replicate 32 (ctJob (fillDesc 8 0) false false 0))
    go s 0x0501 (fillDesc 8 0) = true ∧ s.active = true ∧ s.contact.accepting = true ∧ go off 0x0501 (fillDesc 8 0) = true ∧ off.active = false ∧
    stop.contact.accepting = false ∧ 32 ≤ ((full.contact.qs[(0 : Fin 2)]).jobs.length) ∧ ((q []).contact.qs[(0 : Fin 2)]).jobs.length < 32 ∧
    s.ctFull false ⟨some (3, 1, 0), 0, 1, 0, 1⟩ = false ∧ (slot3 .opened 65535).ctFull false ⟨some (3, 1, 0), 0, 1, 0, 1⟩ = true ∧
    s.ctCheck (ctDesc (fillDesc 65 0)) = .inl 0x0501 ∧
    s.ctCheck (ctDesc (cmd 0x0501 0 (fillDesc 64 0)).payload) = .inr (⟨none, 0x740000000, 0x740000040, 0, 1⟩, false, none) ∧
    s.ctCheck (ctDesc (cmd 0x0501 0 fillPlate).payload) = .inr (⟨some (3, 1, 0), 0, 1, 0, 1⟩, false, none) ∧ go s 0x0501 fillPlate = true ∧
    (∀ k ∈ ((q []).contact.qs[(0 : Fin 2)]).jobs, k.seq ≠ ((q []).contact.qs[(0 : Fin 2)]).nextSeq) ∧
    go s 0x0502 [2] = true ∧ 2 ≤ (cmd 0x0502 0 [2]).arg 0 1 ∧ go s 0x0502 [1] = true ∧ (cmd 0x0502 0 [1]).arg 0 1 = (1 : Fin 2).val := by decide +kernel

theorem hyps_ContactJobsQueueStartAndComplete_jobs :
    let s := slot3 .opened 0
    let q (l : List CtJob) : State := s.setCtQ 0 ⟨6, l⟩
    let stop (j : CtJob) : State := { q [j] with contact := { (q [j]).contact with accepting := false } }
    let limit (n : Nat) : State := (q [ctJob (fillDesc 8 16) false false 2]).setReg idCtCtrl (BitVec.ofNat 32 n)
    let d (j : CtJob) : CtDesc := ctDesc j.desc
    let a := ctJob (fillDesc 8 0) false false 0
    let b := ctJob (fillDesc 8 16) false false 2
    let r := ctJob (fillDesc 64 0) true false 0
    let front : State := (q [{ a with order := 1, src := none }]).setCtQ 1 ⟨1, [{ ctJob (fillDesc 8 0) false false 0 with order := 0 }]⟩
    (q [a]).canonical = true ∧ (q [a]).maskRuns = true ∧ ((q [a]).contact.qs[(0 : Fin 2)]).jobs = [a] ∧ a.complete = false ∧ a.started = false ∧
    (q [a]).ctConflicts a = false ∧ (q [a]).contact.accepting = true ∧ (stop a).contact.accepting = false ∧ (stop a).maskRuns = true ∧
    ((stop a).contact.qs[(0 : Fin 2)]).jobs = [a] ∧ (d a).wait = false ∧ ((front.contact.qs[(0 : Fin 2)]).jobs.any fun j => front.ctConflicts j) = true ∧
    (d b).wait = true ∧ b.passed = false ∧ (limit 2).canonical = true ∧ ((limit 2).contact.qs[(0 : Fin 2)]).jobs = [b] ∧ 0 < b.ticks ∧
    (limit 2).rf idCtCtrl 15 0 ≤ b.ticks ∧ b.ticks < (limit 3).rf idCtCtrl 15 0 ∧ (limit 2).up dCtrl = true ∧ (limit 2).locked 1 = true ∧
    (q [r]).ctRuns 0 = some r ∧ (q [r]).ctRuns 1 = none ∧ (d r).op = 0 ∧ (d r).wm = false ∧ ctSurf (d r).dst = some (.linear 0 64 0x740000000) ∧
    r.dst.plate = none ∧ ((d r).dx + ctWidth (d r) (.bytes 1 64 0x740000000) none) * 2 ^ 0 ≤ 64 ∧
    (∀ x', x' < 64 → ctShared (d r) none 64 (0x740000000 + x') = false) := by decide +kernel

theorem hyps_ContactJobsQueueStartAndComplete_ends :
    let d (j : CtJob) : CtDesc := ctDesc j.desc
    let job (desc : List Byte) (at_ : Nat) (l : Nat) : CtJob :=
      { ctJob desc true false 0 with src := some ⟨none, at_, at_ + 8, 0, 1⟩, left := l }
    let q (l m : List CtJob) : State := ((slot3 .opened 1).setCtQ 0 ⟨6, l⟩).setCtQ 1 ⟨6, m⟩
    let copy := job (opDesc 1 (linear8 + 1)) 0x740000100 2
    let expand := job (opDesc 2 (linear8 + 1 + 2 ^ 62)) 0x740000100 2
    let other (n : Nat) : CtJob := { ctJob (fillDesc 8 0) true false 0 with left := n, order := 1, dst := ⟨none, 0x740000200, 0x740000208, 0, 1⟩ }
    let pl : Plane := ⟨0, .e8, 64, 64, false, 0, 4096⟩
    let fill : CtJob := { ctJob fillPlate true false 0 with dst := ⟨some (3, 1, 0), 0, 1, 0, 1⟩ }
    (q [copy] []).canonical = true ∧ (q [copy] []).maskRuns = true ∧ (q [copy] []).ctRuns 0 = some copy ∧
    (q [copy] [other 1]).ctRuns 0 = some copy ∧ (q [copy] [other 1]).ctRuns 1 = some (other 1) ∧ (other 1).left < copy.left ∧
    (q [copy] [other 2]).ctRuns 0 = some copy ∧ (q [copy] [other 2]).ctRuns 1 = some (other 2) ∧ copy.left ≤ (other 2).left ∧
    copy.complete = false ∧ (d copy).wm = false ∧ (d copy).op = 1 ∧ ctSurf (d copy).src = some (.linear 0 64 0x740000100) ∧
    (q [copy] []).ctBound (.linear 0 64 0x740000100) ⟨none, 0x740000100, 0x740000108, 0, 1⟩ = some (.bytes 1 64 0x740000100) ∧
    (∀ x', x' < 8 → ctShared (d copy) (some (.bytes 1 64 0x740000100)) 8 (0x740000000 + x') = false) ∧ (q [copy] []).dmc.poison = [] ∧
    (q [copy] []).dmc.upset = [] ∧ (d expand).op ≠ 0 ∧ (q [expand] []).ctRuns 0 = some expand ∧ (d expand).wm = false ∧
    ctSurf (d expand).src = some (.linear 4 64 0x740000100) ∧
    (q [expand] []).ctBound (.linear 4 64 0x740000100) ⟨none, 0x740000100, 0x740000108, 0, 1⟩ = some (.bytes 0 64 0x740000100) ∧
    (d fill).op = 0 ∧ (q [fill] []).ctRuns 0 = some fill ∧ fill.dst.plate = some (3, 1, 0) ∧ ((q [fill] []).buf 3 1).plane 0 = some pl ∧
    ctSurf (d fill).dst = some (.plate 3 false 0) ∧ (d fill).wm = false ∧
    pl.addr + 512 * pl.blocks ≤ pl.ent ∧ fill.dst.x1 ≤ blocksAcross pl.lay pl.w ∧ 0 < pl.blocks := by decide +kernel

theorem hyps_RefocusRebuildsAndSwaps :
    let s := dmcOn 250000 0
    let fz (w : Word) : State := s.setReg idRfcCtrl w
    let rf (busy ready : Bool) (at_ : Nat) (w : Word) : State := { fz w with rfc := { s.rfc with busy := busy, ready := ready, readyAt := at_, gen := 7, building := ⟨7, []⟩ } }
    let read (g a : Nat) : Cmd := cmd 0x0402 2 (leBytes 2 g ++ List.replicate 6 0 ++ leBytes 8 a)
    let msg (a b : Bool) : TickMsg := ⟨5, 0, 0, a, b⟩
    let rest : State := { fz 1 with pmu := { s.pmu with rest := true, sleep := .resting } }
    s.locked 1 = true ∧ s.resultRoom ((read 0 0x740000000).arg 8 8) (32 * s.regions.length) = true ∧
    ({ s with dmc := { s.dmc with state := .selfRefresh } } : State).resultRoom ((read 0 0x740000000).arg 8 8) (32 * s.regions.length) = false ∧
    s.up dCtrl = true ∧ bit ((fz 2).reg idRfcCtrl) 1 = true ∧ bit ((fz 1).reg idRfcCtrl) 1 = false ∧ (fz 1).fw = true ∧
    rest.fw = false ∧ rest.up dCtrl = true ∧ (msg true false).swap = true ∧ (msg false true).swap = false ∧ (msg false true).late = true ∧
    (msg false false).late = false ∧ (rf true false 0 1).rfc.busy = true ∧
    (rf false true 0 1).rfc.ready = true ∧ (fz 1).rfc.busy = false ∧ (fz 1).rfc.ready = false ∧ bit ((fz 0).reg idRfcCtrl) 1 = false ∧
    bit ((fz 0).reg idRfcCtrl) 0 = false ∧ (rf true false 0 1).fw = true ∧ (rf false true 249999 1).canonical = true ∧
    (rf false true 249999 1).up dCtrl = true ∧ (rf false true 249999 1).rfc.ready = true ∧ (rf false true 249999 1).rfc.kept = false ∧
    (rf true false 0 1).rfc.ready = false ∧ (taking (read 9 0) s).mayStart (read 9 0) 0x0402 = true ∧
    s.rfc.history.find? (fun g => g.gen == (read 9 0).arg 0 2) = none ∧ (taking (read 0 1) s).mayStart (read 0 1) 0x0402 = true ∧
    s.rfc.history.find? (fun g => g.gen == (read 0 1).arg 0 2) = some ⟨0, []⟩ ∧
    resultOk ((read 0 1).arg 8 8) (32 * s.regions.length) = false ∧ (taking (read 0 0x740000000) s).mayStart (read 0 0x740000000) 0x0402 = true ∧
    s.rfc.history.find? (fun g => g.gen == (read 0 0x740000000).arg 0 2) = some ⟨0, []⟩ ∧
    resultOk ((read 0 0x740000000).arg 8 8) (32 * s.regions.length) = true ∧ (read 0 0x740000000).arg 8 8 ≠ 0 := by decide +kernel

/-! ### Witnesses: the panel -/

/-- The panel in state st, at time n; f changes the rest of it. -/
def panelIn (st : PanelState) (n : Nat) (f : Panel → Panel) : State :=
  let s := (((on .field).setReg idPnlSeq 0x01010101).setReg idPnlTiming 0x00010001)
  { s with now := n, panel := f { s.panel with st := st } }

theorem hyps_PanelPowerFollowsItsSequences :
    let id' : Panel → Panel := fun p => p
    let s := panelIn .off 0 id'
    let go (s : State) (op : Nat) : Bool := (taking (cmd op 2 []) s).mayStart (cmd op 2 []) op
    let bad : State := (panelIn .off 0 fun p => { p with crackOut := #v[1, 0] }).setReg idCrkCtrl 1
    let up (n : Nat) (rail : Nat) (en : BitVec 4) : State := panelIn .upSeq n fun p => { p with upRail := rail, en := en, pg := en >>> 1 }
    let low (n : Nat) : State := panelIn .on n fun p => { p with en := 15, pg := 7, pgLowAt := #v[none, none, none, some 0] }
    let crack : State := ((panelIn .on 0 id').setReg idCrkCtrl 1).setReg (idCrkLimit 0) 0x00C80064
    let recent : State := { crack with panel := { crack.panel with crackAt := #v[some 0, none] }, now := 62499 }
    let crack1 : State := { crack with panel := { crack.panel with crackOut := #v[1, 0] } }
    let dis (n : Nat) : State := panelIn .safeSeq n fun p => { p with step := .discharge, en := 3, pg := 3 }
    let lower : State := panelIn .safeSeq 25000 fun p => { p with step := .lower 1, en := 3, pg := 3 }
    let wait (i : Nat) : State := panelIn .safeSeq 0 fun p => { p with step := .waitPg i, pg := 1 }
    (panelIn .on 0 id').panel.st = .on ∧ (panelIn .on 0 id').crackBad 0 = false ∧ go (up 0 0 0) 0x0601 = true ∧ (up 0 0 0).panel.st = .upSeq ∧
    (up 0 0 0).crackBad 1 = false ∧ s.locked 1 = true ∧ (10000#16).toNat = 10000 ∧
    s.canonical = true ∧ s.up dAon = true ∧ s.up dCtrl = true ∧ s.up dPl = true ∧ go (panelIn .on 0 id') 0x0601 = true ∧
    go (panelIn .safeSeq 0 id') 0x0601 = true ∧ go bad 0x0601 = true ∧ bad.canonical = true ∧ bad.crackBad 0 = true ∧ go s 0x0601 = true ∧
    s.crackBad 0 = false ∧ s.crackBad 1 = false ∧ (up 24999 0 0).panel.en.getLsbD 0 = false ∧ (up 24999 0 0).panel.pg.getLsbD 0 = false ∧
    (up 24999 0 0).now < (up 24999 0 0).panel.stepAt + (up 24999 0 0).railDelay 0 ∧
    (up 25000 0 0).panel.stepAt + (up 25000 0 0).railDelay 0 ≤ (up 25000 0 0).now ∧ (up 25000 0 0).canonical = true ∧
    (up 0 2 7).panel.upRail = (2 : Fin 4).val ∧ (up 0 2 7).panel.en.getLsbD 2 = true ∧ (up 0 3 15).panel.en.getLsbD 3 = true ∧
    (up 25000 3 15).panel.stepAt + (up 25000 3 15).pgTimeout ≤ (up 25000 3 15).now ∧ (low 40).panel.pgLowAt[(3 : Fin 4)] = some 0 ∧
    0 + 40 ≤ (low 40).now ∧ (low 40).canonical = true ∧ crack.canonical = true ∧ crack.active = true ∧ crack.crackDue 0 = true ∧ recent.crackDue 0 = false ∧ ({ recent with now := 62500 } : State).crackDue 0 = true ∧ bit (recent.reg idCrkCtrl) 0 = true ∧ bit (crack.reg idCrkCtrl) 0 = true ∧
    (99#16).toNat < crack.rf (idCrkLimit 0) 15 0 ∧ ¬ ((100#16).toNat < crack.rf (idCrkLimit 0) 15 0 ∨ crack.rf (idCrkLimit 0) 31 16 < (100#16).toNat) ∧
    crack.rf (idCrkLimit 0) 31 16 < (201#16).toNat ∧ crack1.panel.crackOut[(0 : Fin 2)] = 1 ∧ crack.panel.crackOut[(0 : Fin 2)] = 0 ∧
    go s 0x0602 = true ∧ go (up 0 0 0) 0x0602 = true ∧ (dis 249).panel.step = .discharge ∧ (dis 249).pmu.tripped = false ∧
    (dis 249).panel.en.getLsbD 1 = true ∧ (dis 249).panel.en.getLsbD 2 = false ∧ (dis 249).panel.en.getLsbD 3 = false ∧
    (dis 249).now < (dis 249).panel.stepAt + (dis 249).discharge ∧ (dis 250).panel.stepAt + (dis 250).discharge ≤ (dis 250).now ∧
    lower.panel.step = .lower 1 ∧ lower.panel.pg.getLsbD 1 = true ∧ lower.panel.stepAt + lower.railDelay 1 ≤ lower.now ∧
    (wait 1).panel.step = .waitPg (1 : Fin 4).val ∧ (wait 0).panel.step = .waitPg (0 : Fin 4).val ∧ (wait 0).canonical = true := by decide +kernel

/-- Port 1 has fields p, its bus two chips, four lanes. -/
def porting (n : Nat) (p : Port) : State :=
  let s := ((lit (on .field)).setReg (idPlCtrl 1) 0).setReg (idSbChips 1) 2
  { s with now := n, ports := s.ports.set 1 p }

/-- A response of a chip (R273). -/
def answer (st : Byte) (p : List Byte) : List Byte :=
  let b := st :: BitVec.ofNat 8 (p.length / 256) :: BitVec.ofNat 8 p.length :: p
  b ++ be16 (crc16 b)

/-- A POLL response of a chip in a state, with lock flags (R275). -/
def pollAnswer (st lanes : Nat) : List Byte := answer 0 (leBytes 2 0 ++ leBytes 1 (1 + 2 * st) ++ leBytes 2 lanes ++ [0, 0, 0])

theorem hyps_LinksAndSidebandFollowTheirRules :
    let go (s : State) (c : Cmd) (op : Nat) : Bool := (taking c s).mayStart c op
    let s := porting 0 Port.reset
    let tr (n : Nat) (t : Option Nat) (a : Nat) : State := porting n { Port.reset with st := .train, trainAt := t, attempts := a }
    let up (n : Nat) (sb : List SbTrans) : State := porting n { Port.reset with st := .up, pollAt := 1, sb := sb }
    let polled : SbTrans := ⟨1, 1, [], .poll⟩
    let tr2 : State := porting 26000 { Port.reset with st := .train, trainAt := some 0, pollAt := 25000, sb := [polled], round := [some (pollOf [0, 0, 5, 255, 15, 0, 0, 0])] }
    let rd (chip : Nat) : Cmd := cmd 0x0605 0 [1, BitVec.ofNat 8 chip, 9]
    let wr (chip : Nat) : Cmd := cmd 0x0604 0 [1, BitVec.ofNat 8 chip, 9, 0, 1, 2, 3, 4]
    let run (n : Nat) : State := started (rd 3) (porting n { Port.reset with st := .up, sb := [⟨3, 3, [9], .cfgRead (rd 3)⟩] })
    go s (cmd 0x0603 0 [16]) 0x0603 = true ∧ 15 < (cmd 0x0603 0 [16]).arg 0 1 ∧ go s (cmd 0x0603 0 [15]) 0x0603 = true ∧
    (cmd 0x0603 0 [15]).arg 0 1 ≤ 15 ∧ (tr 0 none 0).training 1 = true ∧ (tr 0 none 0).up dPl = true ∧ (tr 0 none 0).locked 11 = true ∧
    (tr 0 none 0).easelRuns 1 = true ∧ ((tr 499999 (some 0) 1).ports[(1 : Fin 4)]).trainAt = some 0 ∧ (tr 499999 (some 0) 1).now < 500000 ∧
    500000 ≤ (tr 500000 (some 0) 2).now ∧ ((tr 500000 (some 0) 1).ports[(1 : Fin 4)]).attempts + 1 < 3 ∧
    3 ≤ ((tr 500000 (some 0) 2).ports[(1 : Fin 4)]).attempts + 1 ∧ (tr 500000 (some 0) 2).canonical = true ∧ s.up dCtrl = true ∧
    s.sbOn 1 = true ∧ s.active = true ∧ (up 250001 []).polling 1 = false ∧ (up 250000 []).training 1 = false ∧
    ((up 250001 []).ports[(1 : Fin 4)]).pollAt ≠ 0 ∧ 1 + 250000 ≤ (up 250001 []).now ∧ (up 250000 []).now < 1 + 250000 ∧
    (up 250001 [polled]).polling 1 = true ∧ (up 250001 []).chips 1 ≠ 0 ∧ ((up 250001 []).ports[(1 : Fin 4)]).sb = [] ∧
    (up 5 [polled]).canonical = true ∧ (up 5 [polled]).sbOn 1 = true ∧ ((up 5 [polled]).ports[(1 : Fin 4)]).sb = [polled] ∧
    sbParse [0, 0, 0, 0, 0] = none ∧ s.up (srcDomain 457) = true ∧ (sbParse (pollAnswer 2 0xFFF)).any (fun r => r.1 == 0) = true ∧
    (sbParse (pollAnswer 2 0xFFF)).any (fun r => (pollOf r.2).good (s.laneMask 1)) = true ∧
    (sbParse (pollAnswer 1 0xFFF)).any (fun r => r.1 == 0 && !(pollOf r.2).good (s.laneMask 1)) = true ∧
    tr2.canonical = true ∧ tr2.training 1 = true ∧ tr2.sbOn 1 = true ∧ 0 + 25000 ≤ (tr2.ports[(1 : Fin 4)]).pollAt ∧
    ((tr2.ports[(1 : Fin 4)]).round.all fun r => r.any fun b => b.good (tr2.laneMask 1)) = true ∧
    (rd 31).arg 0 1 = (1 : Fin 4).val ∧ (wr 31).arg 0 1 = (1 : Fin 4).val ∧ (s.ports[(1 : Fin 4)]).sb = [] ∧
    go s (wr 31) 0x0604 = true ∧ (wr 31).arg 1 1 ≤ 31 ∧ go s (wr 63) 0x0604 = true ∧ (wr 63).arg 1 1 = 63 ∧
    go s (rd 32) 0x0605 = true ∧ 31 < (rd 32).arg 1 1 ∧ go s (rd 31) 0x0605 = true ∧ (rd 31).arg 1 1 ≤ 31 ∧
    (run 0).canonical = true ∧ (run 0).waits (rd 3) = true ∧ ((run 0).ports[(1 : Fin 4)]).sb = [⟨3, 3, [9], .cfgRead (rd 3)⟩] ∧
    sbParse (answer 0 [1, 2, 3, 4]) = some (0, [1, 2, 3, 4]) ∧ (run 1299).now < ((run 0).ports[(1 : Fin 4)]).sbAt + ckTime (reqCk 1 + 66) ∧
    ((run 0).ports[(1 : Fin 4)]).sbAt + ckTime (reqCk 1 + 66) ≤ (run 1300).now := by decide +kernel

theorem hyps_LinksAndSidebandFollowTheirRules_times :
    let s := porting 0 Port.reset
    let rd : Cmd := cmd 0x0605 0 [1, 3, 9]
    let run (n : Nat) : State := started rd (porting n { Port.reset with st := .up, sb := [⟨3, 3, [9], .cfgRead rd⟩] })
    let whole (p : Nat) (b : List Byte) : Nat := ckTime (reqCk p + 2) + ckTime (8 * b.length)
    let at_ (n : Nat) : State := porting n { Port.reset with st := .up, pollAt := 1, sb := [⟨1, 1, [], .poll⟩] }
    (at_ (whole 0 [])).now = ((at_ 0).ports[(1 : Fin 4)]).sbAt + whole 0 [] ∧ (at_ 5).now < ((at_ 5).ports[(1 : Fin 4)]).sbAt + whole 0 [] ∧
    (at_ (whole 0 (pollAnswer 2 0xFFF) + ckTime 64)).canonical = true ∧ (at_ (whole 0 (pollAnswer 2 0xFFF))).sbOn 1 = true ∧
    (run (whole 1 (answer 0 [1, 2, 3, 4]))).canonical = true ∧ (run (whole 1 (answer 0 [1, 2, 3, 4]))).waits rd = true ∧
    (run (whole 1 (answer 0 [1, 2, 3, 4]) + ckTime 64 + 1)).sbOn 1 = true ∧ s.locked 1 = true := by decide +kernel

theorem hyps_LinksAndSidebandFollowTheirRules_retain :
    let go (s : State) (c : Cmd) (op : Nat) : Bool := (taking c s).mayStart c op
    let s := porting 0 Port.reset
    let rt (n : Nat) : Cmd := cmd 0x0606 2 (leBytes 2 n)
    let ret (n : Nat) : State :=
      let t := started (rt 1) (porting n { Port.reset with st := .up, sb := [⟨3, 1, [], .retain⟩] })
      { t with panel := { t.panel with retain := some (some (rt 1), 0), retainDue := [35] } }
    let bl (k : Option Nat) (cyc : Nat) : State :=
      let t := s.setReg idBlCtrl 1
      { t with panel := { t.panel with blK := k }, easels := t.easels.set 0 { t.easels[(0 : Fin 4)] with st := .running, cyc := cyc } }
    s.canonical = true ∧ s.up dCtrl = true ∧ go s (rt 1024) 0x0606 = true ∧ s.panel.retain = none ∧ 1023 < (rt 1024).arg 0 2 ∧
    go s (rt 1023) 0x0606 = true ∧ (rt 1023).arg 0 2 ≤ 1023 ∧ s.sbOn 1 = true ∧ (s.ports[(1 : Fin 4)]).sb = [] ∧
    go s (cmd 0x0607 0 []) 0x0607 = true ∧ (ret 0).canonical = true ∧ (ret 0).panel.retain = some (some (rt 1), 0) ∧ (ret 0).waits (rt 1) = true ∧
    ((ret 0).ports[(1 : Fin 4)]).sb = [⟨3, 1, [], .retain⟩] ∧ (ret 0).panel.retainDue = [32 * (1 : Fin 4).val + 3] ∧ (ret 0).sbOn 1 = true ∧
    (sbParse (pollAnswer 3 0)).any (fun r => r.1 == 0 && (pollOf r.2).chipState == 3) = true ∧
    ((ret 0).ports[(1 : Fin 4)]).sbAt + ckTime (reqCk 0 + 2) + ckTime (8 * (pollAnswer 3 0).length) ≤
      (ret (ckTime (reqCk 0 + 2) + ckTime (8 * (pollAnswer 3 0).length))).now ∧ s.locked 1 = true ∧
    (ret 0).panel.retainDue.contains (32 * (1 : Fin 4).val + 3) = true ∧
    (ret 2499999).now < 0 + 2500000 ∧ 0 + 2500000 ≤ (ret 2500000).now ∧
    (bl none 0).rasterRuns = true ∧ (bl none 0).up dPl = true ∧ (bl none 0).easelRuns 0 = true ∧ bit ((bl none 0).reg idBlCtrl) 0 = true ∧
    (bl (some 0) 0).panel.blK = some (bl (some 0) 0).expo.rasterTick ∧ (bl none 10000000).blDue = false ∧
    (bl none 0).panel.blK ≠ some (bl none 0).expo.rasterTick ∧ (bl none 0).blDue = true ∧ (bl none 0).canonical = true := by decide +kernel
/-! ### Witnesses: thermal model, throttle and trip -/

/-- The thermal unit has fields x at time n. -/
def heated (n : Nat) (x : Thm) : State := { dmcOn n 0 with thm := x }

theorem hyps_ThermalUpdatesReadsAndThrottle :
    let s (n : Nat) (f : Bool) : State := heated n { Thm.reset with fast := f }
    let down (en : BitVec 6) : State := { s 0 false with pmu := { (s 0 false).pmu with powered := 1, pwrEn := en } }
    let dead : State := { s 0 false with pmu := { (s 0 false).pmu with lock := 1 } }
    let rd (set first n a : Nat) : Cmd := cmd 0x0901 2 ([BitVec.ofNat 8 set, 0] ++ leBytes 2 first ++ leBytes 2 n ++ [0, 0] ++ leBytes 8 a)
    let go (c : Cmd) (op : Nat) : Bool := (taking c (s 0 false)).mayStart c op
    (s 249999 false).canonical = true ∧ (s 249999 false).up dCtrl = true ∧ (s 249999 false).locked 1 = true ∧
    (s 249999 false).now < (s 249999 false).thm.updateAt + 250000 ∧ (s 250000 false).thm.updateAt + 250000 ≤ (s 250000 false).now ∧
    (s 15624 true).now < (s 15624 true).thm.updateAt + 15625 ∧ (s 15625 true).thm.updateAt + 15625 ≤ (s 15625 true).now ∧
    (s 15625 true).canonical = true ∧ (s 15625 true).thm.faults[0] = 0 ∧ (down 1).up dCtrl = false ∧ (down 1).vddaUp = true ∧ (down 0).vddaUp = false ∧
    (down 0).up dCtrl = false ∧ dead.locked 1 = false ∧ go (cmd 0x0902 0 []) 0x0902 = true ∧
    go (rd 0 24 1 0) 0x0901 = true ∧ (rd 0 24 1 0).arg 0 1 ≤ 1 ∧ 1 ≤ (rd 0 24 1 0).arg 4 2 ∧ (rd 1 0 512 0).arg 4 2 ≤ 512 ∧
    24 < (rd 0 24 1 0).arg 2 2 + (rd 0 24 1 0).arg 4 2 ∧ (rd 0 23 1 1).arg 2 2 + (rd 0 23 1 1).arg 4 2 ≤ 24 ∧ go (rd 0 23 1 1) 0x0901 = true ∧
    resultOk ((rd 0 23 1 1).arg 8 8) 20 = false ∧ go (rd 0 0 24 0x740000000) 0x0901 = true ∧
    (rd 0 0 24 0x740000000).arg 2 2 + (rd 0 0 24 0x740000000).arg 4 2 ≤ 24 ∧ resultOk ((rd 0 0 24 0x740000000).arg 8 8) 112 = true ∧
    (s 0 false).resultRoom ((rd 0 0 24 0x740000000).arg 8 8) 112 = true ∧
    ({ s 0 false with dmc := { (s 0 false).dmc with state := .selfRefresh } } : State).resultRoom ((rd 0 0 24 0x740000000).arg 8 8) 112 = false ∧
    go (rd 1 0 1 0) 0x0901 = true ∧ (rd 1 0 1 0).arg 2 2 + (rd 1 0 1 0).arg 4 2 ≤ (s 0 false).regions.length := by decide +kernel

theorem hyps_ThermalUpdatesReadsAndThrottle_throttle :
    let s (n : Nat) (stop : Nat) (f : Thm → Thm) : State :=
      let t := (ticking 0 .field).setReg idRateNum 240
      { t with now := n, thm := f t.thm, expo := { t.expo with stop := stop } }
    let hot (t : Thm) : Thm := { t with nodes := t.nodes.set 7 30000 }
    let wide (size : Nat) : State :=
      let t := (s 250000000 3 fun t => { t with coolSince := some 0 }).setReg idRasterSize (BitVec.ofNat 32 size)
      let t := t.setPlate 3 { PlateSlot.reset with bufs := (PlateSlot.reset.bufs).set 0 (buf8 0), inForce := true }
      { t with expo := { t.expo with order := [3] } }
    let tried : State := s 250000000 3 fun t => { t with coolSince := some 0, thr := .liftBlocked, liftTried := some 0 }
    let fits (t : State) (j : Nat) : Bool := t.inForceReason t.pmu.mode j == 0x0200
    (s 0 0 fun t => { t with thr := .grace, graceEnd := 1 }).fw = true ∧ 0 < (s 0 0 id).rateNum ∧ 0 < (s 0 0 id).rateDen ∧
    (s 0 0 fun t => { t with thr := .grace, graceEnd := 1 }).thm.thr = .grace ∧ (s 0 0 id).expo.sched = none ∧
    (s 0 0 fun t => { t with thr := .grace, graceEnd := 1 }).now < (s 0 0 fun t => { t with thr := .grace, graceEnd := 1 }).thm.graceEnd ∧
    (s 1 0 fun t => { t with thr := .grace, graceEnd := 1 }).thm.graceEnd ≤ (s 1 0 fun t => { t with thr := .grace, graceEnd := 1 }).now ∧
    0 < (s 0 1 id).expo.stop ∧ (s 0 2 id).expo.stop < 3 ∧ (s 124999999 1 id).now < (s 124999999 1 id).thm.checkAt + 125000000 ∧
    (s 125000000 1 id).thm.checkAt + 125000000 ≤ (s 125000000 1 id).now ∧ throttleAt 7 ≤ (s 125000000 1 hot).nodeTemp 7 ∧
    (∀ n, n < 24 → (s 125000000 1 id).nodeTemp n < throttleAt n) ∧ (wide (25 + 64 * 1000)).thm.coolSince = some 0 ∧
    (wide (25 + 64 * 1000)).fw = true ∧ 0 + 250000000 ≤ (wide (25 + 64 * 1000)).now ∧ (wide (25 + 64 * 1000)).expo.stop = 3 ∧
    (wide (25 + 64 * 1000)).thm.thr ≠ .liftBlocked ∧ tried.thm.coolSince = some 0 ∧ tried.thm.thr = .liftBlocked ∧ tried.thm.liftTried = some 0 ∧ (List.range 3).map (fits (wide (25 + 64 * 1000))) = [false, false, true] ∧
    (List.range 3).map (fits (wide (63 + 64 * 1023))) = [false, false, false] ∧ (s 0 0 id).expo.stop = 0 := by decide +kernel

theorem hyps_TripPowersDownRecordsAndRestarts :
    let hot (p : State → State) : State := p { heated 0 { Thm.reset with nodes := Thm.reset.nodes.set 7 32000 } with }
    let dark (n : Nat) (r : Option Nat) : State :=
      let s := heated n { Thm.reset with restartSince := r }
      { s with pmu := { Pmu.reset with tripped := true, powered := 1, tripDetail := some (7, 32000, 5, 9) } }
    let stuck : State := { dark 2500000000 (some 0) with pmu := { (dark 0 none).pmu with stuckOff := true } }
    let two : State := { hot id with thm := { (hot id).thm with nodes := (hot id).thm.nodes.set 9 32000 } }
    let later : State := { two with pmu := { two.pmu with tripped := true, tripSeen := [7] } }
    two.tripCauses = [(7, 32000), (9, 32000)] ∧ two.vddaUp = true ∧ (hot lit).locked 1 = true ∧ later.vddaUp = true ∧ later.pmu.tripped = true ∧
    (∀ e ∈ (hot id).tripCauses, e.1 ∈ later.pmu.tripSeen) ∧
    (dark 0 none).rf idPmuBoot 1 0 < 3 ∧ stuck.pmu.stuckOff = true ∧ stuck.pmu.tripped = true ∧ stuck.pmu.powered = 1 ∧ (dark 2500000000 (some 0)).pmu.stuckOff = false ∧
    (hot lit).vddaUp = true ∧ (hot lit).pmu.tripped = false ∧ (hot lit).tripCauses = [(7, 32000)] ∧ (hot lit).up dPl = true ∧
    (hot lit).panel.st = .on ∧ (hot id).vddaUp = true ∧ (hot id).tripCauses = [(7, 32000)] ∧ (hot id).panel.st = .off ∧
    (hot id).panel.step = .none ∧ (dark 0 none).pmu.tripDetail = some (7, 32000, 5, 9) ∧ (dark 0 none).pmu.tripped = true ∧
    (dark 0 none).pmu.powered = 1 ∧ (dark 0 none).nvm.jobs = [] ∧ (dark 0 none).pmu.tripPaged = false ∧
    (dark 0 none).nvmProtected 64 = false ∧ (dark 0 none).thm.restartSince = none ∧ (dark 2499999999 (some 0)).thm.restartSince = some 0 ∧
    (dark 2499999999 (some 0)).now < 0 + 2500000000 ∧ 0 + 2500000000 ≤ (dark 2500000000 (some 0)).now := by decide +kernel

/-! ### Witnesses: calibration -/

theorem hyps_BracketsStartWearAndCount :
    let s := dmcOn 0 0
    let ca (n : Nat) (f : Cal → Cal) : State := { s with now := n, cal := f s.cal }
    let go (s : State) (op cls : Nat) (pay : List Byte) : Bool := (taking (cmd op cls pay) s).mayStart (cmd op cls pay) op
    let fz (b : Nat) (busy : Bool) : State :=
      let t := s.setReg idRfcCtrl (BitVec.ofNat 32 b)
      { t with rfc := { t.rfc with busy := busy } }
    let two : State := { s with expo := { s.expo with pend := [⟨2, commit 2 0, [(idCorrCtrl, 8)], false, [], false, 0⟩] } }
    let run := lit s
    go s 0x0403 2 [2] = true ∧ 1 < (cmd 0x0403 2 [2]).arg 0 1 ∧ go (fz 2 false) 0x0403 2 [0] = true ∧ (cmd 0x0403 2 [0]).arg 0 1 = 0 ∧
    bit ((fz 2 false).reg idRfcCtrl) 1 = true ∧ go (fz 0 true) 0x0403 2 [0] = true ∧ bit ((fz 0 true).reg idRfcCtrl) 1 = false ∧
    (fz 0 true).rfc.busy = true ∧ go (fz 0 false) 0x0403 2 [0] = true ∧ (fz 0 false).rfc.busy = false ∧ (fz 0 false).rfc.ready = false ∧
    (fz 0 false).cal.gCmd = none ∧ (ca 0 fun c => { c with lBusy := true }).cal.lBusy = true ∧ go (ca 0 fun c => { c with lBusy := true }) 0x0403 2 [1] = true ∧
    (cmd 0x0403 2 [1]).arg 0 1 = 1 ∧ go (ca 0 fun c => { c with loading := true }) 0x0403 2 [1] = true ∧ s.cal.lBusy = false ∧ s.cal.loading = false ∧ go s 0x0403 2 [1] = true ∧ go two 0x0403 2 [1] = true ∧
    0 ∈ two.dodgeInForce ∧ 1 ∈ two.dodgeInForce ∧ go s 0x0404 0 [2] = true ∧ 1 < (cmd 0x0404 0 [2]).arg 0 1 ∧ go s 0x0404 0 [1] = true ∧
    (cmd 0x0404 0 [1]).arg 0 1 ≤ 1 ∧ go run 0x0401 2 [] = true ∧ run.rasterRuns = true ∧ go s 0x0401 2 [] = true ∧ s.rasterRuns = false ∧
    go (ca 0 fun c => { c with loading := true }) 0x0401 2 [] = true ∧ (ca 0 fun c => { c with loading := true }).cal.loading = true := by
  decide +kernel

theorem hyps_BracketsStartWearAndCount_time :
    let s := dmcOn 0 0
    let ca (n : Nat) (f : Cal → Cal) : State := { s with now := n, cal := f s.cal }
    let worn : State := { ca 250000000 id with easels := (ca 250000000 id).easels.set 1 { (ca 250000000 id).easels[(1 : Fin 4)] with hist := [(16 * (3 * 9 + 2) + 15, 7)] } }
    let hour (n : Nat) : State := { ca 15000000000 (fun c => { c with lMin := 3839 }) with cnt := ⟨#v[0, n, 0, 0, 0, 0, 0, 0], 0, 0⟩ }
    worn.qw ≤ 32 ∧ worn.regions.contains 9 = true ∧ s.fw = true ∧ s.canonical = true ∧ (ca 249999999 id).now < (ca 249999999 id).cal.histAt + 250000000 ∧ worn.active = true ∧
    worn.cal.histAt + 250000000 ≤ worn.now ∧ worn.canonical = true ∧ mapWf (fun _ => 0) worn.cal.wear = true ∧ worn.easelRuns 1 = true ∧
    (worn.easel 1).hist = [(16 * (3 * 9 + 2) + 15, 7)] ∧ (∀ z : Fin 4, z ≠ 1 → worn.easelRuns z = true → (worn.easel z).hist = []) ∧
    (ca 14999999999 id).now < (ca 14999999999 id).cal.minuteAt + 15000000000 ∧ (on .flat).pmu.mode ≠ .field ∧ (hour 58).pmu.mode = .field ∧
    (hour 58).canonical = true ∧ (hour 58).cal.minuteAt + 15000000000 ≤ (hour 58).now ∧ ((hour 58).cntVal 1 + 1) % 60 ≠ 0 ∧
    ((hour 59).cntVal 1 + 1) % 60 = 0 ∧ (hour 59).nvmProtected 16 = false ∧ (hour 59).nvm.jobs = [] ∧ (hour 59).pmu.tripped = false ∧ (hour 59).cal.lMin = 3839 ∧
    bit (((hour 59).setReg idCalCtrl 1).reg idCalCtrl) 0 = true ∧ (hour 59).cal.lBusy = false ∧ (hour 59).cal.loading = false ∧
    s.cal.dirty.getLsbD (1 : Fin 2).val = false ∧ (ca 150000000000 fun c => { c with dirty := 2 }).cal.dirty.getLsbD (1 : Fin 2).val = true ∧
    (ca 149999999999 id).now < (ca 149999999999 id).cal.savedAt[(1 : Fin 2)] + 150000000000 ∧
    (ca 150000000000 id).cal.savedAt[(1 : Fin 2)] + 150000000000 ≤ (ca 150000000000 id).now ∧
    (ca 150000000000 id).nvmProtected (16 * (2 + (1 : Fin 2).val)) = false ∧ (ca 150000000000 id).nvm.jobs = [] ∧ (ca 150000000000 id).pmu.tripped = false := by decide +kernel

theorem hyps_LuminanceBracketsEnd :
    let c := cmd 0x0403 2 [1]
    let s (set : Option Nat) (n : Nat) (base : List (Nat × List Byte)) : State :=
      let t := started c (dmcOn 0 0)
      { t with cal := { t.cal with lBusy := true, lTarget := set, lCmd := some c, lTicks := n }, corr := { t.corr with base := base } }
    let all : List (Nat × List Byte) := (List.range 32).map fun k => (k, [])
    let busy : State := { s (some 1) 0 all with dmc := { (s (some 1) 0 all).dmc with state := .selfRefresh } }
    (s none 63 []).locked 1 = true ∧ (s (some 1) 0 []).bracketFree 1 = true ∧ (s (some 1) 0 all).bracketFree 1 = true ∧ busy.bracketFree 1 = false ∧
    busy.cal.lTarget = some 1 ∧ busy.canonical = true ∧
    (s none 63 []).fw = true ∧ (s none 63 []).cal.lBusy = true ∧ (s none 63 []).up dCtrl = true ∧ (s none 63 []).up dAon = true ∧
    (s none 63 []).canonical = true ∧ (s none 63 []).cal.lTarget = none ∧ (s none 63 []).cal.lTicks < 64 ∧ 64 ≤ (s none 64 []).cal.lTicks ∧
    (s none 64 []).canonical = true ∧ (s none 64 []).cal.lCmd = some c ∧ (s none 64 []).waits c = true ∧ (s (some 1) 0 []).canonical = true ∧
    (s (some 1) 0 []).cal.lTarget = some 1 ∧ (s (some 1) 0 []).basePlane 3 7 = none ∧ (s (some 1) 0 all).canonical = true ∧
    (∀ q : Fin 4, (List.range 8).all (fun n => ((s (some 1) 0 all).basePlane q n).isSome) = true) ∧ (s (some 1) 0 all).waits c = true ∧
    (s none 0 []).lightLoss ((s none 0 []).hogelRegion 0 0 0) 0 = (s none 0 []).lossMin 0 := by decide +kernel

/-! ### Witnesses: modes, transitions and sleep -/

theorem hyps_ModeAndServiceCommandsAnswer :
    let go (s : State) (op cls : Nat) (pay : List Byte) : Bool := (taking (cmd op cls pay) s).mayStart (cmd op cls pay) op
    let at_ (m : Mode) (tr : Option Transition) : State := { on m with pmu := { (on m).pmu with trans := tr } }
    let moving := at_ .field (some ⟨none, .flat, false, 0, false⟩)
    let set (v : Nat) (s : State) : Bool := go s 0x0004 2 [BitVec.ofNat 8 v]
    let known (s : State) : State := { s with cal := { s.cal with profile := .valid } }
    let cap (tap q line a : Nat) : List Byte := [BitVec.ofNat 8 tap, BitVec.ofNat 8 q] ++ leBytes 2 line ++ [0, 0, 0, 0] ++ leBytes 8 a
    go moving 0x0003 0 [] = true ∧ moving.pmu.trans ≠ none ∧ go (on .field) 0x0003 0 [] = true ∧ set 4 moving = true ∧ set 16 (on .field) = true ∧
    set 8 (on .field) = true ∧ set 7 (on .field) = true ∧ (on .field).pmu.trans = none ∧ (13 : Nat) % 8 = modeCode .field ∧ set 13 (on .standby) = true ∧
    (13 : Nat).testBit 3 = true ∧ set 5 (on .field) = true ∧ (5 : Nat) % 8 = modeCode .field ∧ set 4 (on .standby) = true ∧ (4 : Nat) % 8 = modeCode .flat ∧
    (on .standby).cal.profile ≠ .valid ∧ set 4 (known (on .standby)) = true ∧ (known (on .standby)).cal.profile = .valid ∧
    (known (on .standby)).pmu.mode = .standby ∧ set 6 (on .standby) = true ∧ (6 : Nat) % 8 = modeCode .service ∧ set 2 (on .field) = true ∧
    (2 : Nat) % 8 = modeCode .safelight ∧ (on .field).panel.st ≠ .on ∧ set 3 (on .field) = true ∧ (3 : Nat) % 8 = modeCode .standby ∧
    (on .field).active = true ∧ set 11 (on .standby) = true ∧ (11 : Nat) % 8 = modeCode .standby ∧ set 1 (on .flat) = true ∧
    (1 : Nat) % 8 = modeCode .latent ∧
    go (on .field) 0x0903 0 [0xFF, 0xFF, 0xFF, 0] = true ∧ (on .service).expo.patternNext = none ∧ go (on .service) 0x0B01 2 [5] = true ∧
    4 < (cmd 0x0B01 2 [5]).arg 0 1 ∧ go (on .service) 0x0B01 2 [4, 15] = true ∧ (cmd 0x0B01 2 [4, 15]).arg 0 1 ≤ 4 ∧
    (cmd 0x0B01 2 [4, 15]).arg 1 1 ≤ 15 ∧ go (on .service) 0x0B02 2 (cap 3 0 0 0) = true ∧ 2 < (cmd 0x0B02 2 (cap 3 0 0 0)).arg 0 1 ∧
    (on .service).loads.capture = none ∧ go (on .service) 0x0B02 2 (cap 1 3 15 0x740000000) = true ∧ (cmd 0x0B02 2 (cap 1 3 15 0x740000000)).arg 0 1 = 1 ∧
    (cmd 0x0B02 2 (cap 1 3 15 0x740000000)).arg 1 1 ≤ 3 ∧ (cmd 0x0B02 2 (cap 1 3 15 0x740000000)).arg 2 2 < 16 * (on .service).qh ∧
    resultOk ((cmd 0x0B02 2 (cap 1 3 15 1)).arg 8 8) (4 * 512 * (on .service).qw) = false ∧ go (on .service) 0x0B02 2 (cap 1 3 15 1) = true ∧
    resultOk ((cmd 0x0B02 2 (cap 1 3 15 0x740000000)).arg 8 8) (4 * 512 * (on .service).qw) = true := by decide +kernel

theorem hyps_TransitionsCompleteAndDevicesSleep :
    let c := cmd 0x0004 2 [4]
    let x (m : Mode) (rest second : Bool) : Transition := ⟨some c, m, rest, 0, second⟩
    let s (n : Nat) (from_ : Mode) (t : Transition) (f : Pmu → Pmu) : State :=
      let s := started c (on from_)
      { s with now := n, pmu := f { s.pmu with trans := some t, powered := s.modeMask from_ }, tick := { s.tick with toArrive := [⟨4, 0, 0, false, false⟩] } }
    let sw (n : Nat) : State := s n .field (x .flat false false) id
    let st (r : Bool) : State := s 0 .standby (x .standby r false) id
    let act : State := s 0 .flat (x .standby false true) fun p => { p with powered := (on .standby).modeMask .standby }
    let ent : State := (s 0 .standby (x .standby true false) fun p => { p with sleep := .entering }).setReg idWakeCfg 4
    let loud : State := ent.setReg idWakeCfg 0x204
    (sw 499999).pmu.sleep = .awake ∧ ent.pmu.trans = some (x .standby true false) ∧ ent.fw = true ∧ ent.canonical = true ∧ ent.up dAon = true ∧
    ent.flushed = true ∧ ent.wakeNow false true = [] ∧ bit ((ent.setReg idWakeCfg 0).reg idWakeCfg) 2 = false ∧
    bit (loud.reg idWakeCfg) 2 = true ∧ (x .standby true false).target = .standby ∧ ent.pmu.mode = .standby ∧
    (sw 499999).pmu.trans = some (x .flat false false) ∧ (sw 499999).fw = true ∧ (sw 499999).canonical = true ∧ (sw 499999).up dAon = true ∧
    (sw 499999).active = true ∧ activeMode .flat = true ∧ (sw 499999).now < 0 + 500000 ∧ 0 + 500000 ≤ (sw 500000).now ∧
    (sw 500000).frameNext .flat = true ∧ (sw 500000).wanted &&& ~~~ (sw 500000).pmu.powered = 0 ∧ (sw 500000).waits c = true ∧
    ({ sw 500000 with tick := { (sw 500000).tick with toArrive := [] } } : State).frameNext .flat = false ∧
    (s 0 .standby (x .service false true) id).canonical = true ∧ (s 0 .standby (x .service false true) id).pmu.mode = .standby ∧
    (s 0 .standby (x .flat false true) id).panel.st = .off ∧ (s 0 .standby (x .flat false true) id).canonical = true ∧
    (st true).canonical = true ∧ (st true).stopped (x .standby true false) = true ∧ (st true).pmu.powered = (st true).modeMask .standby ∧
    (st false).stopped (x .standby false false) = true ∧ (st false).pmu.powered = (st false).modeMask .standby ∧
    act.active = true ∧ act.canonical = true ∧ act.up dAon = true ∧ act.fw = true ∧ act.stopped (x .standby false true) = true ∧
    act.pmu.powered = act.modeMask .standby ∧ act.expo.pend = [] ∧ act.waits c = true := by decide +kernel

/-- A device in SAFELIGHT, or at rest in STANDBY, with WAKE_CFG set. -/
def asleep (m : Mode) (sl : Sleep) (cfg : Nat) : State :=
  let s := (on m).setReg idWakeCfg (BitVec.ofNat 32 cfg)
  { s with pmu := { s.pmu with sleep := sl, powered := if m = .safelight then 1 else s.modeMask m, pwrEn := if m = .safelight then 0 else 0x3F } }

theorem hyps_TransitionsCompleteAndDevicesSleep_sleep :
    let go (cfg : Nat) : State := asleep .safelight .entering cfg
    let pin (s : State) (level : Bool) : Bool := let cfg := s.reg idWakeCfg
      bit cfg 2 && ((fld cfg 9 8 == 0 && level) || (fld cfg 9 8 == 1 && !level))
    let timer (n : Nat) (m : Mode) (sl : Sleep) : State := { (asleep m sl 16).setReg idAonTimer 4 with now := n }
    let win (n : Nat) : State := { on .safelight with now := n, pmu := { (on .safelight).pmu with refreshAt := some 5 } }
    (go 0x204).wakeEnabled .pin = true ∧ (go 0x204).wakeHolds .pin = true ∧ (go 0x204).pmu.sleep = .entering ∧ (go 0x204).pmu.trans = none ∧
    ({ go 4 with pmu := { (go 4).pmu with powered := 0xFFFFFF, pwrEn := 0x3F } } : State).fw = true ∧
    (go 4).rf idPmuBoot 1 0 < 3 ∧ (timer 0 .standby .resting).locked 1 = true ∧
    (go 4).pmu.sleep = .entering ∧ (go 4).canonical = true ∧ (go 4).pmu.wakeLatched = none ∧ (go 4).pmu.alarm = false ∧
    (go 4).pmu.mode = .safelight ∧ (go 4).pmu.powered = 1 ∧ (go 4).pmu.pwrEn = 0 ∧ (go 4).pmu.lowering = none ∧ pin (go 4) false = false ∧
    bit ((go 4).reg idWakeCfg) 1 = false ∧ pin (go 4) true = true ∧ pin (go 0x104) false = true ∧ (go 0x104).canonical = true ∧
    pin (go 0x204) true = false ∧ bit ((go 0x204).reg idWakeCfg) 2 = true ∧ 2 ≤ fld ((go 0x204).reg idWakeCfg) 9 8 ∧
    fld ((go 4).reg idWakeCfg) 9 8 < 2 ∧ WakeSrc.pin ≠ .thermal ∧ (asleep .safelight .safelight 0).wakeEnabled .pin = false ∧
    (asleep .safelight .safelight 4).wakeEnabled .pin = true ∧ (asleep .safelight .safelight 4).wakeHolds .pin = true ∧
    (asleep .safelight .safelight 4).canonical = true ∧ (timer 1000000 .safelight .safelight).wakeEnabled .timer = true ∧
    (timer 1000000 .safelight .safelight).wakeHolds .timer = true ∧ (timer 1000000 .standby .resting).canonical = true ∧
    (timer 1000000 .standby .resting).pmu.sleep = .resting ∧ (timer 1000000 .standby .resting).wakeHolds .timer = true ∧
    (timer 1000000 .standby .resting).wakeEnabled .timer = true ∧ (timer 1000000 .standby .resting).up dCtrl = true ∧ (timer 1000000 .standby .resting).up dAon = true ∧
    (0 : BitVec 8) = 0 ∧ (1#8).toNat &&& ((timer 1000000 .standby .resting).setReg idRet 0x01000000).rf idRet 31 24 ≠ 0 ∧
    (on .standby).pmu.sleep = .awake ∧ ((asleep .standby .resting 16).reg idAonTimer).toNat = 0 ∧
    (timer 999999 .standby .resting).now < (timer 999999 .standby .resting).pmu.sleepAt + 250000 * ((timer 999999 .standby .resting).reg idAonTimer).toNat ∧
    (timer 1000000 .safelight .safelight).pmu.sleepAt + 250000 * ((timer 1000000 .safelight .safelight).reg idAonTimer).toNat ≤
      (timer 1000000 .safelight .safelight).now ∧ (timer 1000000 .safelight .safelight).pmu.sleep = .safelight ∧
    (timer 1000000 .standby .resting).pmu.sleep = .resting ∧ bit ((timer 1000000 .standby .resting).reg idWakeCfg) 4 = true ∧
    bit ((asleep .standby .resting 0).reg idWakeCfg) 4 = false ∧ 0 < ((timer 0 .standby .resting).reg idAonTimer).toNat ∧
    (timer 1000000 .standby .resting).canonical = true ∧ (timer 1000000 .safelight .safelight).canonical = true ∧
    (on .safelight).pmu.refreshAt = none ∧ (win 4).now < 5 ∧ 5 ≤ (win 5).now ∧ (win 5).pmu.refreshAt = some 5 := by decide +kernel

/-- Banks whose contents give the stored signatures, and banks none of whose contents does. -/
theorem hyps_TransitionsCompleteAndDevicesSleep_banks :
    let s : State := (asleep .standby .resting 2).setReg idRet 0x01000000
    let kept (d : Word) : State := { s with pmu := { s.pmu with sigs := Vector.ofFn fun (b : Fin 8) => bankSig s.pmu.banks[b] b.val + d } }
    let linked : State := s.setUcie 1 { s.ucie[(1 : Fin 2)] with link := .up }
    (kept 0).banksFailed = 0 ∧ (kept 1).banksFailed = 0xFF ∧ s.canonical = true ∧ s.wakeEnabled .ucie = true ∧ s.wakeHolds .ucie = true ∧
    s.pmu.sleep = .resting ∧ bit (s.reg idWakeCfg) 1 = true ∧ 0xFF &&& s.rf idRet 31 24 ≠ 0 ∧ (linked.ucie[(1 : Fin 2)]).link = .up := by
  refine ⟨?_, ?_, by decide +kernel⟩
  · simp [State.banksFailed, List.range, List.range.loop, maskOf]
  · simp [State.banksFailed, List.range, List.range.loop, maskOf]
/-! ### Witnesses: the NVM -/

/-- Page p VALID with bytes l, or in the state given. -/
def paged (p : Nat) (l : List Byte) (x : NvmPage) (s : State) : State :=
  { s with nvm := { s.nvm with bytes := (l.zipIdx).map fun e => (64 * p + e.2, e.1), pages := [(p, x)] } }

theorem hyps_NvmPagesAreWrittenAndRead :
    let s := dmcOn 0 0
    let u := s.setReg idProtect 0
    let c := cmd 0x0A02 2 (leBytes 2 2560 ++ List.replicate 6 0 ++ leBytes 8 0x740000000)
    let busy (x : NvmUse) : State := let t := started c s; { t with nvm := { t.nvm with jobs := [⟨9, List.replicate 64 3, 0, x⟩] } }
    let rd (p n a : Nat) : Cmd := cmd 0x0A01 2 (leBytes 2 p ++ leBytes 2 n ++ [0, 0, 0, 0] ++ leBytes 8 a)
    let wr (p a : Nat) : Cmd := cmd 0x0A02 2 (leBytes 2 p ++ List.replicate 6 0 ++ leBytes 8 a)
    let go (s : State) (c : Cmd) (op : Nat) : Bool := (taking c s).mayStart c op
    s.nvm.jobs = [] ∧ (busy .record).nvm.jobs = ⟨9, List.replicate 64 3, 0, .record⟩ :: [] ∧ (busy .record).up dAon = true ∧
    (busy .record).canonical = true ∧ mapWf nvmPage0 (busy .record).nvm.pages = true ∧ (List.replicate 64 (3 : Byte)).length = 64 ∧
    (busy (.save c)).canonical = true ∧ (busy (.save c)).waits c = true ∧ (busy (.userWrite c)).canonical = true ∧
    (busy (.userWrite c)).waits c = true ∧ (busy (.userWrite c)).up dCtrl = true ∧ s.canonical = true ∧ go s (rd 0 0 0) 0x0A01 = true ∧
    go s (rd 0 65 0) 0x0A01 = true ∧ 64 < (rd 0 65 0).arg 2 2 ∧ go s (rd 4033 64 0) 0x0A01 = true ∧ (rd 4033 64 0).arg 2 2 ≤ 64 ∧
    4096 < (rd 4033 64 0).arg 0 2 + (rd 4033 64 0).arg 2 2 ∧ (rd 4032 64 1).arg 0 2 + (rd 4032 64 1).arg 2 2 ≤ 4096 ∧
    go s (rd 4032 64 1) 0x0A01 = true ∧ resultOk ((rd 4032 64 1).arg 8 8) (72 * 64) = false ∧
    resultOk ((rd 4032 64 0x740000000).arg 8 8) (72 * 64) = true ∧ go s (rd 4032 64 0x740000000) 0x0A01 = true ∧
    (List.range 64).all (fun i => (s.nvmState (4032 + i)).st != 2) = true ∧ (paged 4032 [] ⟨2, 0, 0, 0⟩ s).canonical = true ∧
    ((paged 4032 [] ⟨2, 0, 0, 0⟩ s).nvmState 4032).st = 2 ∧ 4032 ∉ (paged 4032 [] ⟨2, 0, 0, 0⟩ s).nvm.tornSeen ∧
    go s (wr 4096 0) 0x0A02 = true ∧ 4095 < (wr 4096 0).arg 0 2 ∧ go s (wr 2559 0) 0x0A02 = true ∧ (wr 2559 0).arg 0 2 < 2560 ∧
    go s (wr 4095 0) 0x0A02 = true ∧ s.nvmProtected 4095 = true ∧ u.nvmProtected 4095 = false ∧ u.canonical = true ∧ go u (wr 4095 0) 0x0A02 = true ∧
    hostRange ((wr 4095 0).arg 8 8) 64 = false ∧ go u (wr 2560 0x740000000) 0x0A02 = true ∧ hostRange ((wr 2560 0x740000000).arg 8 8) 64 = true ∧
    u.pmu.tripped = false := by
  decide +kernel

theorem hyps_NvmPagesAreWrittenAndRead_records :
    let s := dmcOn 0 0
    let go (s : State) (c : Cmd) (op : Nat) : Bool := (taking c s).mayStart c op
    let ctr := paged 23 (ctrPage 5 1 9 [] []) ⟨0, 0, 0, 0⟩ s
    let log (n a : Nat) : Cmd := cmd 0x0A04 2 (leBytes 2 n ++ List.replicate 6 0 ++ leBytes 8 a)
    let rec_ := paged 1535 (leBytes 4 7) ⟨0, 0, 0, 0⟩ s
    go s (cmd 0x0A03 0 [8]) 0x0A03 = true ∧ 7 < (cmd 0x0A03 0 [8]).arg 0 1 ∧ go s (cmd 0x0A03 0 [7]) 0x0A03 = true ∧
    (cmd 0x0A03 0 [7]).arg 0 1 ≤ 7 ∧ (List.range 16).all (fun i => !s.nvmOk (16 * 7 + i)) = true ∧ ctr.canonical = true ∧
    ctr.nvmOk (16 * 1 + 7) = true ∧ leAt (ctr.nvmPage (16 * 1 + 7)) 4 2 = 1 ∧ go ctr (cmd 0x0A03 0 [1]) 0x0A03 = true ∧
    go s (log 0 0) 0x0A04 = true ∧ (log 0 0).arg 0 2 = 0 ∧ go s (log 65 0) 0x0A04 = true ∧ 64 < (log 65 0).arg 0 2 ∧ go s (log 64 1) 0x0A04 = true ∧
    (log 64 1).arg 0 2 ≤ 64 ∧ resultOk ((log 64 1).arg 8 8) (64 * 64) = false ∧ go s (log 64 0x740000000) 0x0A04 = true ∧
    resultOk ((log 64 0x740000000).arg 8 8) (64 * 64) = true ∧ (List.range 512).all (fun i => !s.nvmOk (1024 + i)) = true ∧ s.nvm.jobs = [] ∧
    rec_.canonical = true ∧ go rec_ (log 1 0x740000000) 0x0A04 = true ∧ (log 1 0x740000000).arg 0 2 = 1 ∧ (log 1 0x740000000).arg 2 2 = 0 ∧
    rec_.nvmOk (1024 + 511) = true ∧ (List.range 511).all (fun j => !rec_.nvmOk (1024 + j)) = true := by decide +kernel

theorem hyps_NvmPagesAreWrittenAndRead_queue :
    let s := dmcOn 0 0
    let go (s : State) (c : Cmd) (op : Nat) : Bool := (taking c s).mayStart c op
    let rd (p n a : Nat) : Cmd := cmd 0x0A01 2 (leBytes 2 p ++ leBytes 2 n ++ [0, 0, 0, 0] ++ leBytes 8 a)
    let log (n a : Nat) : Cmd := cmd 0x0A04 2 (leBytes 2 n ++ List.replicate 6 0 ++ leBytes 8 a)
    let wr : Cmd := cmd 0x0A02 2 (leBytes 2 2560 ++ List.replicate 6 0 ++ leBytes 8 0x740000000)
    let j (p : Nat) (x : NvmUse) : NvmJob := ⟨p, List.replicate 64 3, 0, x⟩
    let busy (c : Cmd) (l : List NvmJob) : State := let t := started c s; { t with nvm := { t.nvm with jobs := l } }
    let rest : State := { s.setReg idProtect 0 with dmc := { s.dmc with state := .selfRefresh } }
    let load : Cmd := cmd 0x0401 2 []
    go s (rd 0 4096 0) 0x0A01 = true ∧ 4095 < (rd 0 4096 0).arg 2 2 ∧ (rd 0 0 0).arg 2 2 ≤ 4095 ∧ (rd 0 65 0).arg 2 2 ≤ 4095 ∧
    go s (log 4096 0) 0x0A04 = true ∧ 4095 < (log 4096 0).arg 0 2 ∧ (log 65 0).arg 0 2 ≤ 4095 ∧
    go { s with nvm := { s.nvm with jobs := [j 9 .record] } } (rd 0 1 0) 0x0A01 = true ∧ resultOk ((rd 0 1 0).arg 8 8) 72 = true ∧
    go { s with nvm := { s.nvm with jobs := [j 9 .record] } } (log 1 0) 0x0A04 = true ∧ resultOk ((log 1 0).arg 8 8) 64 = true ∧
    s.resultRoom ((rd 4032 64 0x740000000).arg 8 8) (72 * 64) = true ∧ rest.resultRoom ((rd 4032 64 0x740000000).arg 8 8) (72 * 64) = false ∧
    go rest (rd 4032 64 0x740000000) 0x0A01 = true ∧ s.resultRoom ((log 1 0x740000000).arg 8 8) 64 = true ∧
    (busy wr [j 9 .record, j 4095 (.userWrite wr)]).canonical = true ∧ (busy wr [j 9 .record, j 4095 (.userWrite wr)]).nvmProtected 4095 = true ∧
    (busy wr [j 9 .record, j 4095 (.userWrite wr)]).waits wr = true ∧ (busy wr [j 9 .record]).up dAon = true ∧
    ((busy wr [j 9 .record]).setReg idProtect 0).nvmProtected 4095 = false ∧ NvmUse.writes .record = true ∧
    (busy load [j 9 (.ppi load)]).canonical = true ∧ (busy load [j 9 (.ppi load)]).waits load = true ∧
    go rest wr 0x0A02 = true ∧ rest.nvmProtected 2560 = false ∧ rest.room .firmware (wr.arg 8 8) 64 = false ∧
    (s.setReg idProtect 0).room .firmware (wr.arg 8 8) 64 = true ∧ s.badBeats (wr.arg 8 8) 64 = [] ∧ s.locked 1 = true ∧ s.up dAon = true := by
  decide +kernel

/-! ### Witnesses: domains, supplies, clocks, start-up and resets -/

/-- The device in mode m with the domains of a mask powered. -/
def powering (m : Mode) (mask : Nat) (f : Pmu → Pmu) : State :=
  let s := on m
  { s with pmu := f { s.pmu with powered := BitVec.ofNat 24 mask, clamped := ~~~ BitVec.ofNat 24 mask } }

theorem hyps_DomainsPowerInTheirOrder_more :
    let full := powering .field 0xFFFFFF id
    let down (mask : Nat) : State := powering .standby mask id
    let last (s : State) (d : Nat) : Bool := (List.range 24).all fun e => decide (e ≤ d) || !s.pmu.powered.getLsbD e || s.wanted.getLsbD e
    let job : State := { down 0x7F with contact := { (down 0x7F).contact with qs := (down 0x7F).contact.qs.set 0 ⟨1, [{ ctJob fillPlate true false 0 with complete := false }]⟩ } }
    let lit2 : State := let t := down 0x100FF; { t with easels := t.easels.map fun e => { e with strips := [⟨0, 0, some [], some 33, []⟩] } }
    full.locked 1 = true ∧ (poolHome 24).1 = dFab ∧ domReg dPl (idPlCtrl 1) = true ∧ (down 0x7F).dmc.state ≠ .run ∧
    ({ down 0x7F with dmc := { (down 0x7F).dmc with state := .run } } : State).drained 6 = true ∧ job.drained dFab = false ∧
    lit2.drained 16 = false ∧ lit2.wanted.getLsbD 16 = false ∧ last lit2 16 = true := by decide +kernel

theorem hyps_DomainsPowerInTheirOrder :
    let full := powering .field 0xFFFFFF id
    let up (mask : Nat) : State := powering .field mask id
    let core (mask : Nat) : State := powering .field mask fun p => { p with pwrEn := 0x3F, pwrPg := 0x1F }
    let down (mask : Nat) : State := powering .standby mask id
    let away : State := powering .safelight 3 fun p => { p with sleep := .awake }
    let ub (n : Nat) : State := { full with now := n }
    let order (s : State) (d : Nat) : Bool := (List.range d).all fun e => !s.wanted.getLsbD e || s.pmu.powered.getLsbD e
    let last (s : State) (d : Nat) : Bool := (List.range 24).all fun e => decide (e ≤ d) || !s.pmu.powered.getLsbD e || s.wanted.getLsbD e
    full.canonical = true ∧ full.up dAon = true ∧ full.pmu.powered.getLsbD 23 = true ∧ (down 0x3F).wanted.getLsbD 12 = false ∧
    (up 0x3F).wanted.getLsbD 6 = true ∧ (up 0x3F).pmu.powered.getLsbD 6 = false ∧ (up 0x3F).wanted.getLsbD 7 = true ∧
    (up 0x3F).canonical = true ∧ order (up 0x3F) 6 = true ∧ (up 0x3F).suppliesGood = true ∧ (up 0x3F).domClock 6 = true ∧
    (up 0x3F).pmu.trans = none ∧ (up 0xFF).wanted.getLsbD 8 = true ∧ (up 0xFF).pmu.powered.getLsbD 8 = false ∧ order (up 0xFF) 8 = true ∧
    (up 0xFF).pmu.pwrEn.getLsbD 5 = true ∧ (up 0xFF).pmu.pwrPg.getLsbD 5 = true ∧ (core 0xFF).pmu.pwrPg.getLsbD 5 = false ∧
    (core 0xFF).suppliesGood = true ∧ (core 0xFF).canonical = true ∧ order (core 0xFF) 8 = true ∧ (core 0xFF).wanted.getLsbD 8 = true ∧
    (down 0xFFFFFF).pmu.powered.getLsbD 23 = true ∧ (down 0xFFFFFF).wanted.getLsbD 23 = false ∧ last (down 0xFFFFFF) 23 = true ∧
    (down 0xFFFFFF).drained 23 = true ∧ (down 0xFFFFFF).canonical = true ∧ (down 0xFFFFFF).pmu.powered.getLsbD 22 = true ∧
    (down 0xFF).wanted.getLsbD 6 = false ∧ last (down 0x7F) 6 = true ∧ (down 0x7F).drained 6 = true ∧
    away.canonical = true ∧ away.pmu.powered = 3 ∧ away.wanted.getLsbD 1 = false ∧
    last away 1 = true ∧ away.drained 1 = true ∧ full.up dUa = true ∧ full.up dUb = true ∧ (full.ucie[(1 : Fin 2)]).configured = false ∧
    (ub 2499999).now < (ub 2499999).pmu.uaActiveAt + ubWindow ∧ (ub 2500000).pmu.uaActiveAt + ubWindow ≤ (ub 2500000).now := by decide +kernel

theorem hyps_SuppliesRiseFallAndRetry_steps :
    let p (n : Nat) (f : Pmu → Pmu) : State := { State.reset with now := n, pmu := f Pmu.reset }
    let rise (en pg : BitVec 6) : State := p 0 fun x => { x with boot := .supplies, pwrEn := en, pwrPg := pg }
    let late (n : Nat) (en : BitVec 6) : State := p n fun x => { x with boot := .supplies, pwrEn := en, pwrPg := 0 }
    let next (n : Nat) : State := { rise 1 1 with now := n }
    let falling (n : Nat) : State := p n fun x => { x with pwrEn := 0x03, pwrPg := 0x03, lowering := some (2, 0) }
    let last : State := p 0 fun x => { x with pwrEn := 0x01, pwrPg := 0x01, lowering := some (1, 0), fall := .supply }
    let excess : State := { late 2500000 1 with pmu := { (late 2500000 1).pmu with pwrPg := 0 } }
    let trip : State := p 7 fun x => { x with retryAt := some 7, tripped := true }
    (next 0).pending = [] ∧ (next 0).raising = true ∧ (next 0).pmu.pwrEn.getLsbD 1 = false ∧ (next 0).pmu.pwrEn.getLsbD 0 = true ∧
    (next 0).pmu.pwrPg.getLsbD 0 = true ∧ max ((next 24999).pmu.pwrPgAt[(0 : Fin 6)]) ((next 24999).pmu.pwrEnAt[(0 : Fin 6)]) + 25000 ≤ (next 24999).now + 1 ∧
    (next 24998).now + 1 < max ((next 24998).pmu.pwrPgAt[(0 : Fin 6)]) ((next 24998).pmu.pwrEnAt[(0 : Fin 6)]) + 25000 ∧
    (falling 2499999).pending = [] ∧ (falling 2499999).pmu.lowering = some (2, 0) ∧ 0 + 2500000 ≤ (falling 2499999).now + 1 ∧
    (falling 2499999).pmu.pwrOffAt[(2 : Fin 6)] = 0 ∧ (falling 2499999).pmu.pwrEn.getLsbD 0 = true ∧ last.pmu.lowering = some (1, 0) ∧
    last.pmu.fall = .supply ∧ last.pmu.pwrEn.getLsbD 0 = true ∧ last.pmu.pwrPg.getLsbD 0 = true ∧ last.rf idPmuBoot 1 0 < 3 ∧
    (List.range 6).all (fun k => !excess.pmu.pwrPg.getLsbD k) = true ∧ trip.pmu.tripped = true ∧ trip.pmu.retryAt = some 7 ∧ trip.pmu.vaux = true ∧
    State.reset.rf idPmuBoot 1 0 < 3 ∧ (State.reset.setReg idPmuBoot 3).rf idPmuBoot 1 0 = 3 := by decide +kernel

theorem hyps_SuppliesRiseFallAndRetry :
    let p (n : Nat) (f : Pmu → Pmu) : State := { State.reset with now := n, pmu := f Pmu.reset }
    let rise (en pg : BitVec 6) : State := p 0 fun x => { x with boot := .supplies, pwrEn := en, pwrPg := pg }
    let fall_ : State := p 0 fun x => { x with pwrEn := 0x03, pwrPg := 0x03, lowering := some (2, 0) }
    let late (n : Nat) (en : BitVec 6) : State := p n fun x => { x with boot := .supplies, pwrEn := en, pwrPg := 0 }
    let live : State := { lit (dmcOn 40 0) with pmu := { (dmcOn 40 0).pmu with pwrPg := 0x3E, pwrRose := 1 } }
    let fell (n : Nat) : State := p n fun x => { x with boot := .supplies, pwrEn := 1, pwrPg := 0, pwrRose := 1 }
    let retry (n : Nat) : State := p n fun x => { x with boot := .supplies, retryAt := some 7 }
    (rise 1 0).pmu.boot ≠ .aonInit ∧ State.reset.pmu.boot = .aonInit ∧ State.reset.pmu.powered.getLsbD 0 = true ∧ (3 : Nat) ≤ 3 ∧
    (rise 1 0).raising = true ∧ (rise 1 0).pmu.pwrPg.getLsbD 0 = false ∧ (rise 1 0).pmu.pwrEn.getLsbD 0 = true ∧
    (rise 1 0).pmu.pwrPg.getLsbD 1 = false ∧ (rise 0x0F 7).pmu.pwrPg.getLsbD 3 = false ∧ (rise 0x0F 7).pmu.pwrEn.getLsbD 3 = true ∧
    (rise 0x1F 15).raising = true ∧ (rise 0x1F 15).pmu.pwrPg.getLsbD 4 = false ∧ (rise 0x1F 15).pmu.pwrEn.getLsbD 4 = true ∧
    (rise 0x1F 15).pmu.xtal = true ∧ State.reset.raising = false ∧ State.reset.pmu.lowering = none ∧ fall_.pmu.lowering = some (2, 0) ∧
    fall_.pmu.pwrEn.getLsbD 1 = true ∧ fall_.pmu.pwrPg.getLsbD 1 = true ∧ (List.range 4).all (fun k => !fall_.pmu.pwrEn.getLsbD (k + 2)) = true ∧
    (late 2499999 1).pmu.pwrEn.getLsbD 0 = true ∧ (late 2499999 1).pmu.pwrPg.getLsbD 0 = false ∧ (late 2499999 1).pmu.tripped = false ∧
    (late 2499999 1).pmu.lowering = none ∧ (late 2499999 1).pmu.fall = .none ∧ (late 2499999 1).canonical = true ∧
    (late 2499999 1).now < (late 2499999 1).pmu.pwrEnAt[(0 : Fin 6)] + 2500000 ∧ (late 2500000 1).pmu.pwrEnAt[(0 : Fin 6)] + 2500000 ≤ (late 2500000 1).now ∧
    (late 0 1).pmu.pwrRose.getLsbD 0 = false ∧ (fell 0).pmu.pwrRose.getLsbD 0 = true ∧ (fell 39).now < (fell 39).pmu.pwrEnAt[(0 : Fin 6)] + 40 ∧
    (fell 40).pmu.pwrEnAt[(0 : Fin 6)] + 40 ≤ (fell 40).now ∧ (fell 40).canonical = true ∧ live.pmu.pwrRose.getLsbD 0 = true ∧ (late 2500000 1).dk.running = false ∧ (late 2500000 1).pmu.powered = 1 ∧
    (List.range 6).all (fun k => !(late 2500000 1).pmu.pwrEn.getLsbD k || k == 0) = true ∧ live.dk.running = true ∧ live.panel.st = .on ∧
    live.pmu.pwrEn.getLsbD 0 = true ∧ live.pmu.pwrPg.getLsbD 0 = false ∧ live.pmu.pwrEnAt[(0 : Fin 6)] + 40 ≤ live.now ∧ live.canonical = true ∧
    live.pmu.tripped = false ∧ live.pmu.lowering = none ∧ live.pmu.fall = .none ∧ State.reset.pmu.retryAt = none ∧ (retry 6).now < 7 ∧
    7 ≤ (retry 7).now ∧ (retry 7).pmu.retryAt = some 7 ∧ (retry 7).pmu.vaux = true := by decide +kernel

theorem hyps_ClockLossRelocksOrRestarts_more :
    let s := lit (dmcOn 0 0)
    let lost (n : Nat) (p : Nat) (tries : Nat) : State :=
      let s := (dmcOn n 0).setLock p false
      { s with pmu := { s.pmu with tries := Vector.replicate 17 tries } }
    let run : State := let t := lost 0 5 0; { t with dmc := { t.dmc with state := .run } }
    let gone (f : Fall) (b : BootState) : State := { State.reset with pmu := { Pmu.reset with xtal := false, fall := f, boot := b } }
    s.locked 1 = true ∧ s.up dPl = true ∧ s.up dTime = true ∧ 3 ≤ (lost 0 4 3).pmu.tries[(4 : Fin 17)] ∧
    (lost 25001 4 0).pmu.lossAt[(4 : Fin 17)] + (0 + 1) * 25000 < (lost 25001 4 0).now ∧
    (lost 25000 4 0).now ≤ (lost 25000 4 0).pmu.lossAt[(4 : Fin 17)] + (0 + 1) * 25000 ∧ (lost 0 1 0).up dCtrl = true ∧
    ((lost 0 1 0).pmu.powered.getLsbD 1) = true ∧ (lost 0 10 2).pmu.tries[(10 : Fin 17)] + 1 = 3 ∧ (lost 0 10 2).pllOn 10 = true ∧ run.locked 1 = true ∧
    (lost 0 4 0).panel.st = .off ∧ (lost 0 4 0).pmu.powered ≠ 1 ∧ (gone .none .supplies).pmu.fall ≠ .clock ∧
    ({ gone .none .supplies with pmu := { (gone .none .supplies).pmu with pwrEn := 0x1F, pwrPg := 0x1F } } : State).suppliesGood = true := by decide +kernel

theorem hyps_ClockLossRelocksOrRestarts :
    let s := lit (dmcOn 0 0)
    let lost (n : Nat) (p : Nat) (tries : Nat) : State :=
      let s := (dmcOn n 0).setLock p false
      { s with pmu := { s.pmu with tries := Vector.replicate 17 tries } }
    let dark (p : Nat) : State := let t := lost 0 p 0; { t with pmu := { t.pmu with xtal := false } }
    let run : State := let t := lost 0 5 0; { t with dmc := { t.dmc with state := .run } }
    let links : State := { s with ports := s.ports.set 3 { s.ports[(3 : Fin 4)] with st := .up } }
    let time : State := lastTick (some 4) false ((ticking 5 .field).setLock 2 false)
    let gone (f : Fall) (b : BootState) : State := { State.reset with pmu := { Pmu.reset with xtal := false, fall := f, boot := b } }
    let lit_ : State := lit (lost 25000 1 2)
    s.canonical = true ∧ (lost 0 4 0).locked 4 = false ∧ (lost 0 4 0).canonical = true ∧ s.locked 16 = true ∧ s.pmu.xtal = true ∧
    (links.ports[(3 : Fin 4)]).st = .up ∧ links.canonical = true ∧ links.locked 9 = true ∧ links.locked 13 = true ∧
    ((linked 1 1 s).ucie[(1 : Fin 2)]).link = .up ∧ (linked 1 1 s).locked 16 = true ∧ (linked 1 1 s).canonical = true ∧
    (lost 0 4 0).pllOn 4 = true ∧ (lost 0 4 0).pmu.xtal = true ∧ (lost 0 4 0).pmu.fall = .none ∧ time.canonical = true ∧ time.locked 2 = false ∧
    time.pllOn 2 = true ∧ run.dmc.state = .run ∧ run.pllOn 5 = true ∧ run.locked 5 = false ∧ run.up dCtrl = true ∧ run.up dDmc = true ∧
    run.canonical = true ∧ run.pmu.fall = .none ∧ (dark 15).pllOn 15 = true ∧ (dark 15).locked 15 = false ∧ (dark 15).pmu.xtal = false ∧ (dark 15).pmu.fall = .none ∧
    (dark 15).canonical = true ∧  time.run = true ∧ time.tick.last ≠ none ∧ (lost 0 4 0).pmu.tripped = false ∧
    (lost 24999 4 0).now < (lost 24999 4 0).pmu.lossAt[(4 : Fin 17)] + (0 + 1) * 25000 ∧
    (lost 25000 4 0).pmu.lossAt[(4 : Fin 17)] + (0 + 1) * 25000 ≤ (lost 25000 4 0).now ∧ (lost 25000 4 0).pmu.tries[(4 : Fin 17)] = 0 ∧
    (lost 75000 1 2).pmu.tries[(1 : Fin 17)] = 2 ∧ (lost 75000 1 2).pmu.lossAt[(1 : Fin 17)] + (2 + 1) * 25000 ≤ (lost 75000 1 2).now ∧
    (lost 75000 1 2).pllOn 1 = true ∧ (lost 7500 5 0).pmu.tries[(5 : Fin 17)] < 1 ∧
    (lost 7500 5 0).pmu.lossAt[(5 : Fin 17)] + (0 + 1) * 7500 ≤ (lost 7500 5 0).now ∧ (lost 7500 5 0).pllOn 5 = true ∧
    (lost 0 10 0).pmu.lossAt[(10 : Fin 17)] + (0 + 1) * 0 ≤ (lost 0 10 0).now ∧ lit_.panel.st = .on ∧ lit_.panel.en ≠ 0 ∧
    (gone .clock .supplies).pmu.xtal = false ∧ (gone .clock .supplies).pmu.fall = .clock ∧ (gone .clock .supplies).pmu.powered = 1 ∧
    (gone .none .aonInit).pmu.fall = .none ∧ (gone .none .aonInit).pmu.boot ≠ .supplies := by decide +kernel

/-- The bytes of an image of 64 code bytes whose header passes the checks of R550 that no key decides: key 0, SVN 64. -/
def image64 (off n : Nat) : List Byte :=
  ((leBytes 4 0x57464849 ++ leBytes 2 1 ++ [0, 0] ++ leBytes 2 64 ++ [0, 0] ++ leBytes 4 64 ++ List.replicate 1072 0).drop off).take n

/-- Whether an image's key, signature and SVN are good is the part's own (log entries 8 and 9): where they are, image64 passes. -/
theorem hyps_FirmwareLoadsStartsAndRestarts_image (s : State) (h : Config.sha384 (image64 0x20 96) = Config.keyHash 0)
    (r : Config.revoked.getLsbD 0 = false) (m : s.svnMin ≤ 64)
    (v : Config.ecdsaVerify (image64 0x20 96) (image64 0x80 96) (Config.sha384 (image64 0 0x80 ++ image64 0x400 64)) = true) :
    s.imgErr image64 1088 = 0 := by
  have k : leNat (image64 6 1) = 0 := by decide +kernel
  have c : leNat (image64 0xC 4) = 64 := by decide +kernel
  have n : leNat (image64 8 2) = 64 := by decide +kernel
  unfold State.imgErr
  rw [if_neg (by decide +kernel), if_neg, if_neg, if_neg]
  · show ¬ leNat (image64 8 2) < s.svnMin
    rw [n]
    exact Nat.not_lt.mpr m
  · show ¬ (!Config.ecdsaVerify (image64 0x20 96) (image64 0x80 96) (Config.sha384 (image64 0 0x80 ++ image64 0x400 (leNat (image64 0xC 4))))) = true
    rw [c, v]
    decide
  · show ¬ (1 < leNat (image64 6 1) ∨ Config.sha384 (image64 0x20 96) ≠ Config.keyHash (leNat (image64 6 1)) ∨
        Config.revoked.getLsbD (leNat (image64 6 1)) = true)
    rw [k, r]
    exact fun x => x.elim (fun y => absurd y (by decide)) fun y => y.elim (fun z => z h) fun z => absurd z (by decide)

theorem hyps_FirmwareLoadsStartsAndRestarts :
    let s (f : Pmu → Pmu) (run : Bool) : State :=
      let s := powering .standby 0x3F f
      { s with dk := { s.dk with running := run } }
    let load := s (fun p => { p with window := true, boot := .waitFw }) false
    let ver := s (fun p => { p with boot := .verify }) false
    let st : State := let t := s (fun p => { p with boot := .dramTrain }) false; { t with dmc := { t.dmc with state := .run } }
    let warm : State := let t := on .field; { t with dk := { t.dk with restarting := some 1, taken := [commit 2 0] } }
    let late : Cmd := ⟨0, entry 2 2 0 [], 255⟩
    let held : List Resp := [⟨0, 1, 2, 1, false, 0, List.replicate 24 0, 3⟩, ⟨0, 2, 2, 0, true, 0, List.replicate 24 0, 4⟩]
    let waits_ : State := { warm with trays := warm.trays.set 0 { warm.trays[(0 : Fin 8)] with held := held, cmdHead := 256 }, dk := { warm.dk with taken := [late] } }
    let up (a n : Nat) : Cmd := cmd 0x0006 2 (leBytes 8 a ++ leBytes 4 n ++ leBytes 4 1)
    let go (c : Cmd) : Bool := (taking c (dmcOn 0 0)).mayStart c 0x0006
    let unlocked : State := ver.setLock 5 false
    let job : NvmJob := ⟨9, List.replicate 64 3, 0, .record⟩
    let ring (n : Nat) : State := let t := on .standby; { t with trays := t.trays.set 0 { t.trays[(0 : Fin 8)] with respTail := n, held := [⟨0, 3, 6, 0, true, 0, [], 0⟩] } }
    let asleep : State := { dmcOn 0 0 with dmc := { (dmcOn 0 0).dmc with state := .selfRefresh } }
    unlocked.locked 5 = false ∧ unlocked.dk.running = false ∧ unlocked.pmu.boot = .verify ∧ unlocked.up dCtrl = true ∧ unlocked.locked 1 = true ∧
    ver.locked 5 = true ∧ st.nvm.jobs = [] ∧ ({ st with nvm := { st.nvm with jobs := [job] } } : State).canonical = true ∧
    (severity? 32).isSome = true ∧ warm.nvm.jobs = [] ∧ (ring 255).fw = true ∧ ((ring 255).tray 0).held = [⟨0, 3, 6, 0, true, 0, [], 0⟩] ∧
    idxSub ((ring 255).tray 0).respTail ((ring 255).tray 0).respHead < 256 ∧ asleep.room .firmware ((up 0x740000000 64).arg 0 8) ((up 0x740000000 64).arg 8 4) = false ∧
    (taking (up 0x740000000 64) asleep).mayStart (up 0x740000000 64) 0x0006 = true ∧
    (dmcOn 0 0).room .firmware ((up 0x740000000 64).arg 0 8) ((up 0x740000000 64).arg 8 4) = true ∧
    (s id true).pmu.window = false ∧ load.pmu.window = true ∧ ver.pmu.boot = .verify ∧ ver.up dCtrl = true ∧ ver.locked 1 = true ∧
    (ver.imgErr ver.imgBytes ver.dk.imageLen == 0x10) = true ∧ (s (fun p => { p with boot := .verify }) true).dk.running = true ∧
    ver.dk.running = false ∧ ver.up dDmc = true ∧ ver.canonical = true ∧ st.pmu.boot = .dramTrain ∧ st.up dCtrl = true ∧ st.locked 1 = true ∧
    st.dk.restarting = none ∧ st.dk.running = false ∧ st.dmc.state = .run ∧ st.canonical = true ∧ (s id true).dk.restarting = none ∧
    warm.dk.restarting = some 1 ∧ warm.up dCtrl = true ∧ warm.locked 1 = true ∧ warm.pmu.boot = .fwRunning ∧ warm.canonical = true ∧
    late ∈ waits_.dk.taken ∧ 1 ≤ idxSub (waits_.tray late.tray).cmdHead late.index ∧ idxSub (waits_.tray late.tray).cmdHead late.index ≤ 256 ∧
    ((waits_.tray 0).held.any fun r => !r.final) = true ∧ ((waits_.tray 0).held.any Resp.final) = true ∧ waits_.dk.restarting = some 1 ∧
    (warm.imgErr warm.imgBytes warm.dk.imageLen == 0x10) = true ∧ go (up 0 64) = true ∧ hostRange ((up 0 64).arg 0 8) ((up 0 64).arg 8 4) = false ∧
    go (up 0x740000000 64) = true ∧ hostRange ((up 0x740000000 64).arg 0 8) ((up 0x740000000 64).arg 8 4) = true ∧
    ((dmcOn 0 0).imgErr (fun off k => (dmcOn 0 0).dramRead ((up 0x740000000 64).arg 0 8 + off) k) 64 == 0x10) = true ∧
    (s id true).pmu.boot ≠ .dramTrain ∧ (s id true).dk.running = true ∧ ((up 0x740000000 64).arg 0xC 4).testBit 0 = true := by decide +kernel

/-- The digests of a profile are the part's own function too (log entry 9): no profile can be shown to pass; a short one fails at 0x0404. -/
theorem hyps_SlowCommandsEndWhenTheirWorkIsDone :
    let s := dmcOn 0 0
    let c (k : Nat) : Cmd := cmd 0x0007 2 [BitVec.ofNat 8 k]
    let go (s : State) (k : Nat) : Bool := (taking (c k) s).mayStart (c k) 0x0007
    let sv : State := lit (on .service)
    let run (x : Cmd) (l : LinkState) : State := started x ((dmcOn 0 0).setUcie 0 { Ucie.reset with link := l })
    let full_ (x : Cmd) : State := { s with dk := { s.dk with taken := [x, cmd 0x0304 2 []], started := [x, cmd 0x0304 2 []] } }
    let ppi : Cmd := cmd 0x0401 2 (leBytes 8 0x740000000 ++ leBytes 4 64 ++ leBytes 4 0)
    let t := started ppi s
    let u : State := { t with cal := { t.cal with loading := false } }
    go s 5 = true ∧ (c 5).arg 0 1 ≠ 2 ∧ (c 5).arg 0 1 ≠ 3 ∧ (c 5).arg 0 1 ≠ 4 ∧ go s 3 = true ∧ (c 3).arg 0 1 = 3 ∧
    (s.ucie[(1 : Fin 2)]).configured = false ∧ go s 4 = true ∧ (c 4).arg 0 1 = 4 ∧ s.pmu.mode ≠ .service ∧ go s 2 = true ∧
    (c 2).arg 0 1 = 2 + (0 : Fin 2).val ∧ (c 3).arg 0 1 = 2 + (1 : Fin 2).val ∧ ((linked 1 1 s).ucie[(1 : Fin 2)]).configured = true ∧
    go (linked 1 1 s) 3 = true ∧ go sv 4 = true ∧ sv.pmu.mode = .service ∧ sv.panel.st = .on ∧ s.waits (c 2) = false ∧
    (run (c 2) .train).fw = true ∧ (run (c 2) .train).waits (c 2) = true ∧ (c 2).opcode = 0x0007 ∧
    ((run (c 2) .train).ucie[(0 : Fin 2)]).link ≠ .up ∧ ((run (c 2) .up).ucie[(0 : Fin 2)]).link = .up ∧
    (started (c 4) s).waits (c 4) = true ∧ (started (c 4) s).panel.st = .off ∧ (started (c 4) s).fabIdle = true ∧ (full_ (c 4)).fabIdle = false ∧ (full_ (c 4)).waits (c 4) = true ∧
    (∀ e ∈ (started (c 4) s).expo.pend, e.cmd ≠ c 4) ∧ (started (c 4) sv).waits (c 4) = true ∧ (started (c 4) sv).panel.st ≠ .off ∧
    t.fw = true ∧ t.waits ppi = true ∧ ppi.opcode = 0x0401 ∧ t.dmcRuns = true ∧ hostRange (ppi.arg 0 8) (ppi.arg 8 4) = true ∧
    (u.ppiCheck (ppi.arg 0 8) (t.dramRead (ppi.arg 0 8) (ppi.arg 8 4)) ((ppi.arg 0xC 1).testBit 0) == 0x0404) = true := by decide +kernel

/-- A YTC image of eight FLAT blocks of zeros for the plane of slot 3, at the start of the host area. -/
def ytc8 : List Byte :=
  leBytes 4 0x49435459 ++ leBytes 1 (layoutCode .e8) ++ [0, 0, 0] ++ leBytes 4 64 ++ leBytes 4 64 ++
    (List.replicate 8 (leBytes 2 (mkEntry 2 0 false false false))).flatten ++ List.replicate 256 0

theorem hyps_SlowCommandsEndWhenTheirWorkIsDone_loads :
    let pl : Plane := ⟨0, .e8, 64, 64, false, 0, 4096⟩
    let load (n kind t : Nat) : Cmd := cmd 0x0304 2 (leBytes 8 0x740000000 ++ leBytes 4 n ++ [BitVec.ofNat 8 kind, BitVec.ofNat 8 t])
    let c := load 288 0 3
    let s : State := started c ((slot3 .opened 1).dramWrite 0x740000000 ytc8)
    let d : State := started (load 288 1 5) ((slot3 .opened 1).dramWrite 0x740000000 ytc8)
    let away (s : State) : State := { s with dmc := { s.dmc with state := .selfRefresh } }
    let v := s.access .fixer 0x740000000 288
    let bad : State := started c (slot3 .opened 1)
    let held : State := fixing [fixBlk 512 .complete] s
    let x := load 288 0 11
    s.fw = true ∧ s.waits c = true ∧ c.opcode = 0x0304 ∧ s.canonical = true ∧ (away s).room .fixer 0x740000000 288 = false ∧ (away s).waits c = true ∧
    s.fabRuns = true ∧ s.room .fixer (c.arg 0 8) (c.arg 8 4) = true ∧ c.arg 0xC 1 = 0 ∧ (s.back 3).plane (c.arg 0xD 1 / 8) = some pl ∧
    v.planeFree pl = true ∧ (match v.imgCheck ⟨0x740000000, 288⟩ pl with | .inr l => l.length == 8 | _ => false) = true ∧
    (bad.access .fixer 0x740000000 288).imgCheck ⟨0x740000000, 288⟩ pl = .inl (0x0301, 2 ^ 32 - 1) ∧ bad.canonical = true ∧
    (held.access .fixer 0x740000000 288).planeFree pl = false ∧ held.canonical = true ∧ s.dmc.poison = [] ∧ s.dmc.upset = [] ∧
    pl.addr + 512 * pl.blocks ≤ pl.ent ∧ (s.back 3).plane (x.arg 0xD 1 / 8) = none ∧ (started x s).waits x = true ∧
    (load 288 1 5).arg 0xC 1 ≠ 0 ∧ d.waits (load 288 1 5) = true ∧ d.canonical = true ∧
    (d.access .fixer 0x740000000 288).planeFree (d.dodgePlane 1 1 0) = true := by decide +kernel

theorem hyps_SlowCommandsEndWhenTheirWorkIsDone_rest :
    let s := dmcOn 0 0
    let scrub : Cmd := cmd 0x0702 2 (leBytes 8 0x740000000 ++ leBytes 8 64)
    let ptp : Cmd := cmd 0x0803 2 (leBytes 4 0x80000000)
    let rd : Cmd := cmd 0x0A01 2 (leBytes 2 0 ++ leBytes 2 1 ++ [0, 0, 0, 0] ++ leBytes 8 0x740000000)
    let ppi : Cmd := cmd 0x0401 2 (leBytes 8 0x740000000 ++ leBytes 4 64 ++ leBytes 4 0)
    let low : Cmd := cmd 0x0401 2 (leBytes 8 0 ++ leBytes 4 64 ++ leBytes 4 0)
    let done : State := let t := started rd s; { t with nvm := { t.nvm with results := [(rd, List.replicate 72 1)] } }
    let writing : State := let t := started ppi s; { t with nvm := { t.nvm with jobs := [⟨9, List.replicate 64 3, 0, .ppi ppi⟩] } }
    let away (s : State) : State := { s with dmc := { s.dmc with state := .selfRefresh } }
    let patch : State := started (cmd 0x0007 2 [4]) s
    let open_ : State := { patch with dk := { patch.dk with started := [cmd 0x0007 2 [4], cmd 0x0301 2 []] } }
    let r : SlowResult := ⟨false, [0x740000000 / 8], [0x740000000 / 8 + 1], 0⟩
    (started scrub s).fw = true ∧ (started scrub s).waits scrub = true ∧ scrub.opcode = 0x0702 ∧ (started scrub s).canonical = true ∧
    (started scrub s).room .host (scrub.arg 0 8) (scrub.arg 8 8) = true ∧ (away (started scrub s)).room .host (scrub.arg 0 8) (scrub.arg 8 8) = false ∧
    ((started scrub s).scrubArise scrub r).scrubFound (scrub.arg 0 8) (scrub.arg 8 8) = (1, 1) ∧
    (started ptp s).waits ptp = true ∧ ptp.opcode = 0x0803 ∧ (started ptp s).canonical = true ∧ done.fw = true ∧ done.waits rd = true ∧
    rd.opcode = 0x0A01 ∧ done.nvm.results = [(rd, List.replicate 72 1)] ∧ done.resultRoom (rd.arg 8 8) 72 = true ∧
    (away done).resultRoom (rd.arg 8 8) 72 = false ∧ (started rd s).nvm.results = [] ∧ writing.ppiWriting ppi = true ∧ writing.waits ppi = true ∧
    (started ppi s).ppiWriting ppi = false ∧ (started ppi s).ppiFree 0x740000000 64 = true ∧ (away (started ppi s)).ppiFree 0x740000000 64 = false ∧
    hostRange (low.arg 0 8) (low.arg 8 4) = false ∧ (started low s).waits low = true ∧ patch.dataIdle = true ∧ open_.dataIdle = false ∧
    open_.waits (cmd 0x0007 2 [4]) = true ∧ (started ppi s).pmu.tripped = false := by decide +kernel

theorem hyps_ResetsReturnToTheirValues :
    let s := dmcOn 0 0
    let busy : State := { s with nvm := { s.nvm with jobs := [⟨9, List.replicate 64 3, 0, .record⟩] } }
    let dark : State := { s with pmu := { s.pmu with powered := 0 } }
    s.canonical = true ∧ mapWf nvmPage0 s.nvm.pages = true ∧ s.nvm.jobs = [] ∧ busy.canonical = true ∧ mapWf nvmPage0 busy.nvm.pages = true ∧
    busy.nvm.jobs = ⟨9, List.replicate 64 3, 0, .record⟩ :: [] ∧ (List.replicate 64 (3 : Byte)).length = 64 ∧ idScrubPasses ≠ idBor ∧
    idScrubPasses ≠ idPmuBoot ∧ s.pmu.powered.getLsbD 0 = true ∧ dark.pmu.powered.getLsbD 0 = false := by decide +kernel

end Sys2Proof.Tests
end

section
/-!
Direct writes of held registers (R16, R17, R53, R54, R409): which registers have an effect of their own beside their bits, the word that a
write leaves behind, bit by bit, and what the write of a register without such an effect does to the state.
-/
namespace Sys2Proof.Machine

/-! ### The catalogue -/

theorem RegDef.at?_d {d : RegDef} {id : Nat} {f : Found} (h : d.at? id = some f) : f.d = d := by
  unfold RegDef.at? at h
  grind

theorem findReg_mem {id : Nat} {f : Found} (h : findReg id = some f) : ∃ g < 34, f.d ∈ groupDefs g := by
  unfold findReg at h
  split at h
  case isFalse => cases h
  case isTrue hid =>
    obtain ⟨d, hd, hat⟩ := List.exists_of_findSome?_eq_some h
    exact ⟨id / 1024, by omega, RegDef.at?_d hat ▸ hd⟩

/-- Every register whose value is narrower than its container (R12) has class T fields. -/
theorem clsMask_t_of_matrix : ∀ g < 34, ∀ d ∈ groupDefs g, idMatrix 0 ≤ d.base → d.base ≤ idMatrix 4 → d.clsMask .t ≠ 0 := by
  decide +kernel

theorem narrowed_of_clsMask_t {id : Nat} {f : Found} (hf : findReg id = some f) (ht : f.d.clsMask .t = 0) (v : Word) :
    narrowed f.d.base v = v := by
  obtain ⟨g, hg, hd⟩ := findReg_mem hf
  exact if_neg fun h => clsMask_t_of_matrix g hg f.d hd h.1 h.2 ht

/-! ### Registers with an effect of their own -/

/-- The bases of the registers whose write does something beside its bits, or does something else. -/
def ownEffects : List Nat :=
  [0x0402, 0x500A, 0x7400, 0x7401, 0x7500, idProtect, idRestart, idTickCtrl, idTimeCfg, 0x6420, idRfcCtrl, idRasterSize]

theorem State.writeReg_of_not_ownEffects (s : State) {f : Found} (v hw : Word) (dflt : Bool) (hb : f.d.base ∉ ownEffects)
    (hk : f.d.kind = .held) (hu : f.upper = false) : s.writeReg f v hw dflt = s.writeHeld f v hw dflt := by
  simp only [ownEffects, List.mem_cons, not_or] at hb
  simp [State.writeReg, hb, hk, hu]

theorem State.writeEffect_of_not_ownEffects (s : State) {base : Nat} (id i : Nat) (old v : Word) (hb : base ∉ ownEffects) :
    s.writeEffect base id i old v = s := by
  simp only [ownEffects, List.mem_cons, not_or] at hb
  simp [State.writeEffect, hb]

theorem deferred_of_not_ownEffects {base : Nat} (hb : base ∉ ownEffects) : deferred base = 0 := by
  simp only [ownEffects, List.mem_cons, not_or] at hb
  simp [deferred, hb]

/-! ### The written word -/

/-- The word that a write of v leaves in a register that held old, of whose bits rw take the written value and w1c are cleared by a 1,
while hardware sets the bits hw (R16). -/
def writtenWord (rw w1c old v hw : Word) : Word :=
  ((old &&& ~~~ rw) ||| (v &&& rw)) &&& ~~~ (v &&& w1c &&& ~~~ hw) ||| (hw &&& w1c)

theorem bit_writtenWord (rw w1c old v hw : Word) (i : Fin 32) : bit (writtenWord rw w1c old v hw) i =
    (((bit old i && !bit rw i) || (bit v i && bit rw i)) && !(bit v i && bit w1c i && !bit hw i) || (bit hw i && bit w1c i)) := by
  simp [writtenWord, bit]

section
variable {rw w1c : Word} (old v hw : Word) {i : Fin 32}

theorem bit_writtenWord_rw (h1 : bit rw i = true) (h2 : bit w1c i = false) : bit (writtenWord rw w1c old v hw) i = bit v i := by
  simp [bit_writtenWord, h1, h2]

/-- Hardware's set wins over a clear in the same clock. -/
theorem bit_writtenWord_w1c (h1 : bit rw i = false) (h2 : bit w1c i = true) :
    bit (writtenWord rw w1c old v hw) i = (bit hw i || (bit old i && !bit v i)) := by
  rw [bit_writtenWord, h1, h2]
  cases bit hw i <;> simp

theorem bit_writtenWord_kept (h1 : bit rw i = false) (h2 : bit w1c i = false) : bit (writtenWord rw w1c old v hw) i = bit old i := by
  simp [bit_writtenWord, h1, h2]

end

/-! ### The write as a whole -/

theorem State.writeHeld_of_not_ownEffects (s : State) {id : Nat} {f : Found} {v : Word} (hw : Word) (hf : findReg id = some f)
    (hl : f.lowId = id) (ht : f.d.clsMask .t = 0) (hb : f.d.base ∉ ownEffects) (hv : f.d.badMask v ||| relMask f.d.base v = 0)
    (hs : s.ownerIdle f = true ∨ f.d.changedMask .s (s.reg id) v = 0) :
    s.writeHeld f v hw false =
      s.setReg id (writtenWord (f.d.accMask fun a => a = .rw) (f.d.accMask fun a => a = .w1c) (s.reg id) v hw) := by
  have hsBad : (if s.ownerIdle f then 0 else f.d.changedMask .s (s.reg id) v) = 0 := by
    rcases hs with h | h <;> simp [h]
  have htMask : (f.d.clsMask .t &&& f.d.accMask fun a => a = .rw) = 0 := by simp [ht]
  have hkeep (w : Word) : w &&& ~~~(0 : Word) = w := BitVec.and_allOnes
  simp only [State.writeHeld, narrowed_of_clsMask_t hf ht, hl, hv, hsBad, htMask, deferred_of_not_ownEffects hb,
    State.writeEffect_of_not_ownEffects _ _ _ _ _ hb, hkeep, writtenWord, Bool.false_eq_true, ne_eq, not_true_eq_false, ↓reduceIte]

theorem exec_registerWrite {s : State} {id : Nat} {f : Found} (hf : findReg id = some f) (hup : s.up dCtrl = true) (v hw : Word) :
    exec (.registerWrite id v hw) s = .next (s.writeReg f v hw) := by
  simp [exec, execRegisterWrite, hf, hup]

end Sys2Proof.Machine

open Sys2Proof Sys2Proof.Machine

/-- Settles O12: the write is one update of the held register, whose bits are those of `writtenWord`. The registers that R12
narrows all have class T fields, so the written value stands as it is. -/
theorem registerWriteFollowsAccessCodes : Obligations.RegisterWriteFollowsAccessCodes := by
  intro s id f v hw hcan hup hf hk hu hl ht hb hv hs rw w1c
  have hwf : mapWf resetWord s.regs.held = true := ((RegFile.canonical_iff _).1 ((State.canonical_iff s).1 hcan).1).1
  have hexec : exec (.registerWrite id v hw) s = .next (s.setReg id (writtenWord rw w1c (s.reg id) v hw)) := by
    rw [exec_registerWrite hf hup, s.writeReg_of_not_ownEffects v hw false hb hk hu,
      s.writeHeld_of_not_ownEffects hw hf hl ht hb hv hs]
  refine ⟨_, hexec, rfl, fun j hj => s.reg_setReg_ne _ hj, fun i => ?_⟩
  rw [State.reg_setReg_same hwf]
  exact ⟨bit_writtenWord_rw _ _ _, bit_writtenWord_w1c _ _ _, bit_writtenWord_kept _ _ _⟩
end

section
/-!
The line that has been sent (R37, R241, R266): what the work done on it leaves alone, and when it gets the next hogel row allocated.
-/
namespace Sys2Proof.Machine

/-! ### What the work on a sent line leaves alone -/

/-- What nothing done on a sent line of quadrant q touches: the plates, the raster size, the strip and line-buffer pools, the other Easels,
and which rows, strips and sent lines q's Easel has. -/
structure KeepsRows (q : Fin 4) (s t : State) : Prop where
  plates : t.plates = s.plates
  size : t.reg idRasterSize = s.reg idRasterSize
  pool : ∀ k, 33 ≤ k → k < 41 → t.pool k = s.pool k
  others : ∀ z : Fin 4, z ≠ q → t.easels[z] = s.easels[z]
  st : (t.easel q).st = (s.easel q).st
  nextRow : (t.easel q).nextRow = (s.easel q).nextRow
  strips : (t.easel q).strips = (s.easel q).strips
  sentLines : (t.easel q).sentLines = (s.easel q).sentLines

section
variable {q : Fin 4} {s t u : State}

theorem KeepsRows.refl (q : Fin 4) (s : State) : KeepsRows q s s :=
  ⟨rfl, rfl, fun _ _ _ => rfl, fun _ _ => rfl, rfl, rfl, rfl, rfl⟩

theorem KeepsRows.trans (h : KeepsRows q s t) (k : KeepsRows q t u) : KeepsRows q s u where
  plates := k.plates.trans h.plates
  size := k.size.trans h.size
  pool := fun i h1 h2 => (k.pool i h1 h2).trans (h.pool i h1 h2)
  others := fun z hz => (k.others z hz).trans (h.others z hz)
  st := k.st.trans h.st
  nextRow := k.nextRow.trans h.nextRow
  strips := k.strips.trans h.strips
  sentLines := k.sentLines.trans h.sentLines

theorem KeepsRows.ite {p : Prop} [Decidable p] (h : KeepsRows q s t) (k : KeepsRows q s u) : KeepsRows q s (if p then t else u) := by
  split
  · exact h
  · exact k

theorem KeepsRows.foldl {α : Type} {f : State → α → State} (h : ∀ s a, KeepsRows q s (f s a)) (l : List α) (s : State) :
    KeepsRows q s (l.foldl f s) := by
  induction l generalizing s with
  | nil => exact .refl q s
  | cons a l ih => exact (h s a).trans (ih _)

/-- A change of anything but the Easels, the plates, the raster size and those pools. -/
theorem KeepsRows.ofEasels (he : t.easels = s.easels) (hp : t.plates = s.plates) (hr : t.reg idRasterSize = s.reg idRasterSize)
    (hk : ∀ k, 33 ≤ k → k < 41 → t.pool k = s.pool k) : KeepsRows q s t := by
  have h : t.easel q = s.easel q := by rw [State.easel, he, State.easel]
  exact ⟨hp, hr, hk, fun z _ => by rw [he], by rw [h], by rw [h], by rw [h], by rw [h]⟩

/-- Accesses of the stack. -/
theorem DramEffect.keepsRows (h : DramEffect s t) (q : Fin 4) : KeepsRows q s t :=
  .ofEasels (by rw [h.rest]) (by rw [h.rest]) (h.reg _ (by decide) (by decide))
    fun k h1 h2 => h.pool k (by omega) (by omega)

end

theorem State.easels_get (s : State) (q : Fin 4) : s.easels[q] = s.easel q := rfl

theorem State.easel_setEasel_same (s : State) (q : Fin 4) (e : Easel) : (s.setEasel q e).easel q = e := by
  simp [State.setEasel, State.easel]

theorem State.easels_setEasel_ne (s : State) {q z : Fin 4} (e : Easel) (h : z ≠ q) : (s.setEasel q e).easels[z] = s.easels[z] := by
  have h' : q.val ≠ z.val := fun i => h (Fin.ext i.symm)
  simp [State.setEasel, Vector.getElem_set_ne, h']

/-- A change of q's Easel beside its rows. -/
theorem State.setEasel_keepsRows (s : State) {q : Fin 4} {e : Easel} (h1 : e.st = (s.easel q).st) (h2 : e.nextRow = (s.easel q).nextRow)
    (h3 : e.strips = (s.easel q).strips) (h4 : e.sentLines = (s.easel q).sentLines) : KeepsRows q s (s.setEasel q e) where
  plates := rfl
  size := rfl
  pool := fun _ _ _ => rfl
  others := fun _ hz => s.easels_setEasel_ne e hz
  st := by rw [s.easel_setEasel_same, h1]
  nextRow := by rw [s.easel_setEasel_same, h2]
  strips := by rw [s.easel_setEasel_same, h3]
  sentLines := by rw [s.easel_setEasel_same, h4]

/-! ### The parts of that work -/

theorem State.histLine_keepsRows (s : State) (q : Fin 4) (y : Nat) : KeepsRows q s (s.histLine q y) :=
  .ite (.refl q s) (s.setEasel_keepsRows rfl rfl rfl rfl)

theorem State.putCharge_dram (s : State) (w : DClient) (addr ent n : Nat) : DramEffect s (s.putCharge w addr ent n) :=
  ((s.charge_dram w addr n 512).trans (State.charge_dram _ w _ 32 32)).trans (State.readErr_dram _ _ _ _ _)

theorem State.dramWrite_dram (s : State) (a : Nat) (bs : List Byte) : DramEffect s (s.dramWrite a bs) :=
  (s.setMem_dram _).trans (State.wholeBeats_dram _ _)

theorem State.storeBlk_dram (s : State) (addr ent : Nat) (stored : List Byte) (entry : Nat) :
    DramEffect s (s.storeBlk addr ent stored entry) := by
  have h := ((s.uncache_dram (· == addr)).trans (State.dramWrite_dram _ addr stored)).trans (State.dramWrite_dram _ ent (leBytes 2 entry))
  unfold State.storeBlk
  dsimp only
  split
  · exact h
  · exact h.trans { DramEffect.refl _ with rest := rfl }

theorem State.storeRow_keepsRows (s : State) (q : Fin 4) (b lim : Nat) : KeepsRows q s (s.storeRow q b lim) := by
  refine (((s.countLive_dram _ _ _).keepsRows q).trans (.foldl (fun s ch => .foldl (fun s k => ?_) _ s) _ _)).trans
    (State.setEasel_keepsRows _ rfl rfl rfl rfl)
  refine KeepsRows.trans ?_ (((State.putCharge_dram _ _ _ _ _).trans (State.storeBlk_dram _ _ _ _ _)).keepsRows q)
  split
  · exact .refl q s
  · exact s.setEasel_keepsRows rfl rfl rfl rfl

theorem State.storeEnd_keepsRows (s : State) (q : Fin 4) : KeepsRows q s (s.storeEnd q) :=
  .ite ((KeepsRows.foldl (fun s b => s.storeRow_keepsRows q b _) _ s).trans (State.setEasel_keepsRows _ rfl rfl rfl rfl)) (.refl q s)

theorem Answered.keepsRows {s t : State} {c : Cmd} {status reason : Nat} {p : List Byte} (h : Answered s t c status reason p) (q : Fin 4) :
    KeepsRows q s t :=
  .ofEasels (by rw [h.rest]) (by rw [h.rest]) (by rw [h.rest]; rfl) fun _ _ _ => by rw [h.rest]; rfl

theorem State.setLoads_keepsRows (s : State) (q : Fin 4) (l : Loads) : KeepsRows q s { s with loads := l } :=
  .ofEasels rfl rfl rfl fun _ _ _ => rfl

theorem State.setCtQ_keepsRows (s : State) (q : Fin 4) (x : Fin 2) (v : CtQueue) : KeepsRows q s (s.setCtQ x v) :=
  .ofEasels rfl rfl rfl fun _ _ _ => rfl

theorem State.captureLine_keepsRows (s : State) (q : Fin 4) (y : Nat) : KeepsRows q s (s.captureLine q y) := by
  unfold State.captureLine
  split
  · exact .refl q s
  · refine .ite ?_ (.refl q s)
    have h (a : Nat) (bs : List Byte) (l : Loads) := ((s.putResult_dram a bs).keepsRows q).trans (State.setLoads_keepsRows _ q l)
    exact .ite ((h _ _ _).trans ((State.done_answered _ _ _).keepsRows q)) (h _ _ _)

theorem State.ctNotify1_keepsRows (s : State) (q : Fin 4) (x : Fin 2) (j : CtJob) (more : Nat) : KeepsRows q s (s.ctNotify1 x j more) := by
  refine KeepsRows.trans ?_ ((State.raiseN_event _ _ _ _).dram.keepsRows q)
  refine .ofEasels (by simp [State.setCtQ]) (by simp [State.setCtQ]) ?_ fun k h1 h2 => ?_
  · rw [State.giveBack_frame]
    exact State.reg_setReg_ne _ _ (by have := x.isLt; simp only [idRasterSize, idCtDone]; omega)
  · exact State.pool_giveBack_ne _ _ (by omega)

theorem State.ctNotify_keepsRows (q : Fin 4) (x : Fin 2) (n : Nat) (s : State) : KeepsRows q s (State.ctNotify x n s) := by
  induction n generalizing s with
  | zero => exact .refl q s
  | succ n ih =>
    unfold State.ctNotify
    split
    · exact .refl q s
    · exact .ite ((s.ctNotify1_keepsRows q x _ 0).trans (ih _)) (.refl q s)

theorem State.ctPass_keepsRows (s : State) (q z : Fin 4) (y k : Nat) : KeepsRows q s (s.ctPass z y k) := by
  unfold State.ctPass
  exact .foldl (fun s x => (s.setCtQ_keepsRows q x _).trans (State.ctNotify_keepsRows q x _ _)) _ s

/-! ### The next hogel row -/

theorem State.freeUnits_lineBuffer (s : State) (q : Fin 4) : s.freeUnits (37 + q.val) = 64 - (s.easel q).linesHeld := by
  match q with
  | 0 => rfl
  | 1 => rfl
  | 2 => rfl
  | 3 => rfl

/-- No row is left, or no 16 lines of the line buffer are free. -/
theorem State.allocRow_none (s : State) (q : Fin 4) (h : s.qh ≤ (s.easel q).nextRow ∨ 48 < (s.easel q).linesHeld) : s.allocRow q = s := by
  refine if_neg ?_
  rw [s.freeUnits_lineBuffer]
  omega

/-- The Easel with its next row allocated. -/
def Easel.withRow (e : Easel) (qw : Nat) : Easel :=
  { e with rows := e.rows ++ [(e.nextRow, 0)], nextRow := e.nextRow + 1
           strips := e.strips ++ (List.range qw).map fun m => (⟨e.nextRow, m, none, none, []⟩ : Strip) }

theorem Easel.withRow_sentLines (e : Easel) (n : Nat) : (e.withRow n).sentLines = e.sentLines := rfl
theorem Easel.withRow_nextRow (e : Easel) (n : Nat) : (e.withRow n).nextRow = e.nextRow + 1 := rfl
theorem Easel.withRow_strips (e : Easel) (n : Nat) :
    (e.withRow n).strips = e.strips ++ (List.range n).map fun m => ⟨e.nextRow, m, none, none, []⟩ := rfl

/-- The next row of quadrant q allocated: 16 lines of its line buffer, n strips and their tokens. -/
def State.withRow (s : State) (q : Fin 4) (n : Nat) : State :=
  ((s.issue (37 + q.val) 16).issue (33 + q.val) n).setEasel q ((s.easel q).withRow n)

theorem State.withRow_lines (s : State) (q : Fin 4) (n : Nat) : (s.withRow q n).pool (37 + q.val) =
    { s.pool (37 + q.val) with issued := ((s.pool (37 + q.val)).issued + 16) % 2 ^ 64 } :=
  (State.pool_issue_ne _ n (by omega)).trans (State.pool_setPool_same _ _ (by omega))

theorem State.withRow_tokens (s : State) (q : Fin 4) (n : Nat) : (s.withRow q n).pool (33 + q.val) =
    { s.pool (33 + q.val) with issued := ((s.pool (33 + q.val)).issued + n) % 2 ^ 64 } := by
  refine (State.pool_setPool_same _ _ (by omega)).trans ?_
  rw [s.pool_issue_ne 16 (by omega)]

theorem State.withRow_plates (s : State) (q : Fin 4) (n : Nat) : (s.withRow q n).plates = s.plates := by
  simp [State.withRow, State.setEasel]

theorem State.withRow_easel (s : State) (q : Fin 4) (n : Nat) : (s.withRow q n).easel q = (s.easel q).withRow n :=
  State.easel_setEasel_same _ q _

theorem State.withRow_others (s : State) {q z : Fin 4} (n : Nat) (h : z ≠ q) : (s.withRow q n).easels[z] = s.easels[z] := by
  rw [State.withRow, State.easels_setEasel_ne _ _ h, State.issue_easels, State.issue_easels]

theorem State.issue_qw (s : State) (k n : Nat) : (s.issue k n).qw = s.qw := by
  simp only [State.qw, State.rf, State.reg, State.issue_regs]

theorem State.allocRow_some (s : State) (q : Fin 4) (h1 : (s.easel q).nextRow < s.qh) (h2 : (s.easel q).linesHeld ≤ 48) :
    s.allocRow q = s.withRow q s.qw := by
  have hf : 16 ≤ s.freeUnits (37 + q.val) := by rw [s.freeUnits_lineBuffer]; omega
  unfold State.allocRow
  rw [if_pos (And.intro h1 hf)]
  simp only [State.issue_qw]
  rfl

/-! ### The command -/

/-- The Easel after its next line has been sent. -/
def Easel.lineGone (e : Easel) : Easel :=
  { e with sentLines := e.sentLines + 1
           rows := if e.sentLines % 16 = 15 then e.rows.filter fun r => r.1 != e.sentLines / 16 else e.rows }

/-- The line has gone and its line-buffer line is back. -/
def State.lineGone (s : State) (q : Fin 4) : State := (s.setEasel q (s.easel q).lineGone).giveBack (37 + q.val) 1

/-- All of LINE_SENT before a row is allocated. -/
def State.lineDone (s : State) (q : Fin 4) : State :=
  let y := (s.easel q).sentLines
  let t := (s.lineGone q).histLine q y
  let t := if y % 8 = 7 && !t.flatNow then t.storeRow q (y / 8) (y + 1) else t
  ((t.storeEnd q).captureLine q y).ctPass q y (s.easel q).k

theorem exec_lineSent_idle {s : State} {q : Fin 4} (h : s.linesOut q ≤ (s.easel q).sentLines ∨ s.lineOut q (s.easel q).sentLines = false) :
    exec (.lineSent q) s = .next s := by
  refine congrArg Host.Outcome.next (if_neg ?_)
  rcases h with h | h
  · simp [Nat.not_lt.2 h]
  · simp [h]

theorem exec_lineSent {s : State} {q : Fin 4} (hr : s.easelRuns q = true) (hst : (s.easel q).st ≠ .idle)
    (h1 : (s.easel q).sentLines < s.linesOut q) (h2 : s.lineOut q (s.easel q).sentLines = true) :
    exec (.lineSent q) s = .next (if (s.easel q).st = .running then (s.lineDone q).allocRow q else s.lineDone q) :=
  congrArg Host.Outcome.next (if_pos (by simp [hr, hst, h1, h2]))

theorem State.lineDone_keepsRows (s : State) (q : Fin 4) : KeepsRows q (s.lineGone q) (s.lineDone q) :=
  ((((State.histLine_keepsRows _ q _).trans (.ite (State.storeRow_keepsRows _ q _ _) (.refl q _))).trans
    (State.storeEnd_keepsRows _ q)).trans (State.captureLine_keepsRows _ q _)).trans (State.ctPass_keepsRows _ q q _ _)

/-- What holds of t when a line of quadrant q has been sent in s and no row has been allocated since. -/
structure LineReturned (q : Fin 4) (s t : State) : Prop where
  plates : t.plates = s.plates
  size : t.reg idRasterSize = s.reg idRasterSize
  lines : t.pool (37 + q.val) = { s.pool (37 + q.val) with returned := ((s.pool (37 + q.val)).returned + 1) % 2 ^ 64 }
  tokens : t.pool (33 + q.val) = s.pool (33 + q.val)
  others : ∀ z : Fin 4, z ≠ q → t.easels[z] = s.easels[z]
  st : (t.easel q).st = (s.easel q).st
  nextRow : (t.easel q).nextRow = (s.easel q).nextRow
  strips : (t.easel q).strips = (s.easel q).strips
  sentLines : (t.easel q).sentLines = (s.easel q).sentLines + 1

theorem State.lineGone_easel (s : State) (q : Fin 4) : (s.lineGone q).easel q = (s.easel q).lineGone := by
  rw [State.lineGone, State.easel, State.giveBack_easels]
  exact s.easel_setEasel_same q _

theorem State.lineDone_returned (s : State) (q : Fin 4) : LineReturned q s (s.lineDone q) := by
  have h := s.lineDone_keepsRows q
  have hq := q.isLt
  constructor
  case plates => rw [h.plates, State.lineGone, State.giveBack_plates]; rfl
  case size => rw [h.size, State.lineGone, State.giveBack_frame]; rfl
  case lines =>
    rw [h.pool _ (by omega) (by omega)]
    exact State.pool_setPool_same _ _ (by omega)
  case tokens =>
    rw [h.pool _ (by omega) (by omega)]
    exact State.pool_giveBack_ne _ 1 (by omega)
  case others =>
    intro z hz
    rw [h.others z hz, State.lineGone, State.giveBack_easels]
    exact s.easels_setEasel_ne _ hz
  case st => rw [h.st, s.lineGone_easel]; rfl
  case nextRow => rw [h.nextRow, s.lineGone_easel]; rfl
  case strips => rw [h.strips, s.lineGone_easel]; rfl
  case sentLines => rw [h.sentLines, s.lineGone_easel]; rfl

section
variable {q : Fin 4} {s t : State}

theorem LineReturned.qh (h : LineReturned q s t) : t.qh = s.qh := by simp only [State.qh, State.rf, h.size]
theorem LineReturned.qw (h : LineReturned q s t) : t.qw = s.qw := by simp only [State.qw, State.rf, h.size]

theorem LineReturned.linesHeld (h : LineReturned q s t) (hst : (s.easel q).st = .running) :
    (t.easel q).linesHeld = 16 * (s.easel q).nextRow - ((s.easel q).sentLines + 1) := by
  simp only [Easel.linesHeld, h.st, hst, h.nextRow, h.sentLines]

/-- With no row left, or fewer than 16 lines free, none is allocated. -/
theorem LineReturned.allocRow_none (h : LineReturned q s t) (hst : (s.easel q).st = .running)
    (hr : s.qh ≤ (s.easel q).nextRow ∨ 48 < 16 * (s.easel q).nextRow - ((s.easel q).sentLines + 1)) : t.allocRow q = t :=
  t.allocRow_none q (by rwa [h.qh, h.nextRow, h.linesHeld hst])

/-- With 16 lines free the next row is allocated. -/
theorem LineReturned.allocRow_some (h : LineReturned q s t) (hst : (s.easel q).st = .running) (h1 : (s.easel q).nextRow < s.qh)
    (h2 : 16 * (s.easel q).nextRow - ((s.easel q).sentLines + 1) ≤ 48) :
    t.allocRow q = t.withRow q s.qw := by
  rw [t.allocRow_some q (by rwa [h.qh, h.nextRow]) (by rwa [h.linesHeld hst]), h.qw]

end

theorem exec_lineSent_noRow {s : State} {q : Fin 4} (hr : s.easelRuns q = true) (hst : (s.easel q).st ≠ .idle)
    (h1 : (s.easel q).sentLines < s.linesOut q) (h2 : s.lineOut q (s.easel q).sentLines = true)
    (hn : (s.easel q).st = .aborted ∨ s.qh ≤ (s.easel q).nextRow ∨ 48 < 16 * (s.easel q).nextRow - ((s.easel q).sentLines + 1)) :
    exec (.lineSent q) s = .next (s.lineDone q) := by
  rw [exec_lineSent hr hst h1 h2]
  split
  next hrun => rw [(s.lineDone_returned q).allocRow_none hrun (hn.resolve_left (by simp [hrun]))]
  next => rfl

theorem exec_lineSent_row {s : State} {q : Fin 4} (hr : s.easelRuns q = true) (hst : (s.easel q).st = .running)
    (h1 : (s.easel q).sentLines < s.linesOut q) (h2 : s.lineOut q (s.easel q).sentLines = true) (hn : (s.easel q).nextRow < s.qh)
    (hf : 16 * (s.easel q).nextRow - ((s.easel q).sentLines + 1) ≤ 48) :
    exec (.lineSent q) s = .next ((s.lineDone q).withRow q s.qw) := by
  rw [exec_lineSent hr (by simp [hst]) h1 h2, if_pos hst, (s.lineDone_returned q).allocRow_some hst hn hf]

end Sys2Proof.Machine
end

section
/-!
Reads of the stack and events, in more detail than their effects say: a charge touches no beat, a read can only spoil what reads later, the
registers' maps stay in canonical form, and a reported event leaves its status bit set.
-/
namespace Sys2Proof.Machine

/-! ### Charging an access -/

/-- All that charging an access changes (R316, R343): counts, tokens, and how long SIDs have been idle. No beat and no register. -/
def Charged (s t : State) : Prop :=
  t = { s with pools := t.pools, fresh := t.fresh, regs := { s.regs with live := t.regs.live, clock := t.regs.clock }
               dmc := { s.dmc with sidPd := t.dmc.sidPd, sidIdle := t.dmc.sidIdle } }

section
variable {s t u : State}

theorem Charged.refl (s : State) : Charged s s := rfl

theorem Charged.trans (h : Charged s t) (k : Charged t u) : Charged s u := by
  unfold Charged at h k ⊢
  rw [k, h]

theorem Charged.ofPools (h : t = { s with pools := t.pools }) : Charged s t := by
  unfold Charged
  rw [h]

theorem Charged.badBeats (h : Charged s t) (a n : Nat) : t.badBeats a n = s.badBeats a n := by
  unfold Charged at h
  rw [h]; rfl

end

theorem State.countLive_charged (s : State) (id n : Nat) (m : Bool) : Charged s (s.countLive id n m) := rfl

theorem State.sids_charged (s : State) (l : List Nat) : Charged s (l.foldl (fun s k => (s.wakeSid k).touchSid k) s) := by
  induction l generalizing s with
  | nil => exact .refl s
  | cons k l ih =>
    refine Charged.trans ?_ (ih _)
    unfold State.touchSid
    dsimp only
    split <;> rfl

theorem State.moveWaits_charged (s : State) (c : DClass) (u : Nat) : Charged s (s.moveWaits c u) := by
  unfold State.moveWaits
  split <;> rfl

theorem State.charge_charged (s : State) (w : DClient) (a n counted : Nat) : Charged s (s.charge w a n counted) := by
  unfold State.charge
  dsimp only
  split
  · exact .refl s
  · exact (((Charged.ofPools (s.turn_frame _ _)).trans (State.sids_charged _ _)).trans (State.moveWaits_charged _ _ _)).trans
      (State.countLive_charged _ _ _ _)

/-! ### Reading a plane's block -/

theorem State.readErr_of_good {s : State} {a n : Nat} (h : s.badBeats a n = []) (scrub : Bool) (counts : Nat → Bool) :
    s.readErr a n scrub counts = s := by
  rw [State.readErr, h]; rfl

theorem State.devRead_dram (s : State) (w : DClient) (a ent : Nat) : DramEffect s (s.devRead w a ent) :=
  ((s.access_dram w _ _).trans (State.charge_dram _ w _ _ _)).trans (State.readErr_dram _ _ _ _ _)

theorem State.devRead_mem (s : State) (w : DClient) (a ent : Nat) : (s.devRead w a ent).dmc.mem = s.dmc.mem := by
  rw [State.devRead, State.readErr_mem, State.charge_mem, State.access_mem]

/-- Where no beat is wrong, a read is charged and does nothing else. -/
theorem State.devRead_charged {s : State} {a ent : Nat} (h1 : s.badBeats (ent / 64 * 64) 64 = []) (h2 : s.badBeats a (s.slotLen ent) = [])
    (w : DClient) : Charged s (s.devRead w a ent) := by
  have k1 := s.charge_charged w (ent / 64 * 64) 64 64
  have e1 : s.access w (ent / 64 * 64) 64 = s.charge w (ent / 64 * 64) 64 64 :=
    State.readErr_of_good ((k1.badBeats _ _).trans h1) _ _
  have k2 := k1.trans (State.charge_charged _ w a (s.slotLen ent) 512)
  rw [State.devRead, e1, State.readErr_of_good ((k2.badBeats _ _).trans h2)]
  exact k2

/-! ### What a read spoils -/

/-- The bytes are the same, and what reads well in t read well in s. -/
structure Spoils (s t : State) : Prop where
  mem : t.dmc.mem = s.dmc.mem
  clean : ∀ a n, t.clean a n = true → s.clean a n = true
  entOk : ∀ ent, t.entOk ent = true → s.entOk ent = true

section
variable {s t u : State}

theorem Spoils.refl (s : State) : Spoils s s := ⟨rfl, fun _ _ h => h, fun _ h => h⟩

theorem Spoils.trans (h : Spoils s t) (k : Spoils t u) : Spoils s u :=
  ⟨k.mem.trans h.mem, fun a n hc => h.clean a n (k.clean a n hc), fun e hc => h.entOk e (k.entOk e hc)⟩

theorem Charged.spoils (h : Charged s t) : Spoils s t := by
  unfold Charged at h
  rw [h]
  exact ⟨rfl, fun _ _ h => h, fun _ h => h⟩

/-- When a block cannot be delivered for an uncorrectable error. -/
theorem State.readBlk_uncorr_iff (s : State) (lay : YLayout) (alpha : Bool) (addr ent : Nat) : s.readBlk lay alpha addr ent = .uncorr ↔
    s.entOk ent = false ∨ entryValid alpha (s.entryAt ent) = true ∧ s.clean addr (32 * (entLen (s.entryAt ent) + 1)) = false := by
  unfold State.readBlk
  dsimp only
  cases s.entOk ent
  case false => simp
  case true =>
    cases entryValid alpha (s.entryAt ent)
    case false => simp
    case true =>
      cases s.clean addr (32 * (entLen (s.entryAt ent) + 1))
      case false => simp
      case true =>
        simp only [Bool.not_true, Bool.false_eq_true, ↓reduceIte, Bool.true_eq_false, and_false, or_false, iff_false]
        split <;> simp

/-- It still cannot after what spoils. -/
theorem Spoils.readBlk_uncorr (h : Spoils s t) {lay : YLayout} {alpha : Bool} {addr ent : Nat} (hr : s.readBlk lay alpha addr ent = .uncorr) :
    t.readBlk lay alpha addr ent = .uncorr := by
  have hent : t.entryAt ent = s.entryAt ent := by simp only [State.entryAt, State.dramRead, State.dramByte, h.mem]
  rw [State.readBlk_uncorr_iff] at hr ⊢
  rw [hent]
  refine hr.imp (fun h1 => ?_) fun ⟨h1, h2⟩ => ⟨h1, ?_⟩
  · exact Bool.eq_false_iff.2 fun k => Bool.eq_false_iff.1 h1 (h.entOk _ k)
  · exact Bool.eq_false_iff.2 fun k => Bool.eq_false_iff.1 h2 (h.clean _ _ k)

end

/-! ### Raising an event -/

/-- The registers' maps that events write to are in canonical form. -/
def State.regsWf (s : State) : Prop := mapWf resetWord s.regs.held = true ∧ mapWf (fun _ => 0) s.regs.ctrs = true

/-- The maps stay in canonical form, and no source's status is cleared. -/
structure KeepsStatus (s t : State) : Prop where
  wf : s.regsWf → t.regsWf
  status : s.regsWf → ∀ n < 576, s.evStatus n = true → t.evStatus n = true

section
variable {s t u : State}

theorem KeepsStatus.refl (s : State) : KeepsStatus s s := ⟨id, fun _ _ _ h => h⟩

theorem KeepsStatus.trans (h : KeepsStatus s t) (k : KeepsStatus t u) : KeepsStatus s u :=
  ⟨fun w => k.wf (h.wf w), fun w n hn hs => k.status (h.wf w) n hn (h.status w n hn hs)⟩

theorem KeepsStatus.ite {p : Prop} [Decidable p] (h : KeepsStatus s t) (k : KeepsStatus s u) : KeepsStatus s (if p then t else u) := by
  split
  · exact h
  · exact k

theorem KeepsStatus.ofHeld (h : t.regs.held = s.regs.held) (hc : s.regsWf → mapWf (fun _ => 0) t.regs.ctrs = true) : KeepsStatus s t :=
  ⟨fun w => ⟨h ▸ w.1, hc w⟩, fun _ n _ hs => by rwa [State.evStatus, State.reg, h]⟩

theorem KeepsStatus.ofRegs (h : t.regs = s.regs) : KeepsStatus s t := .ofHeld (by rw [h]) fun w => h ▸ w.2

end

theorem State.addCtr_keepsStatus (s : State) (id n : Nat) : KeepsStatus s (s.addCtr id n) := .ofHeld rfl fun w => mapWf_mapSet w.2 id _

theorem State.setPool_keepsStatus (s : State) (k : Nat) (p : Pool) : KeepsStatus s (s.setPool k p) := .ofRegs (by rw [s.setPool_frame])

theorem State.setReg_regsWf {s : State} (w : s.regsWf) (id : Nat) (v : Word) : (s.setReg id v).regsWf := ⟨s.setReg_wf w.1 id v, w.2⟩

/-- A write to a register that holds no status bits. -/
theorem State.setReg_keepsStatus (s : State) {id : Nat} (v : Word) (h : ∀ g < 18, id ≠ idEvStatus g) : KeepsStatus s (s.setReg id v) :=
  ⟨fun w => State.setReg_regsWf w id v, fun _ n hn hs => by
    rwa [State.evStatus, s.reg_setReg_ne v (h (n / 32) (by omega)).symm]⟩

theorem State.setCap_keepsStatus (s : State) (n k : Nat) (v : Word) : KeepsStatus s (s.setReg (idCap n k) v) :=
  s.setReg_keepsStatus v fun g hg => by simp only [idCap, idEvStatus]; omega

theorem State.setLost_keepsStatus (s : State) (k : Nat) (v : Word) : KeepsStatus s (s.setReg (idEvLost k) v) :=
  s.setReg_keepsStatus v fun g hg => by simp only [idEvLost, idEvStatus]; omega

/-- The status word with the bit of source n set. -/
def State.statusSet (s : State) (n : Nat) : State :=
  s.setReg (idEvStatus (n / 32)) (s.reg (idEvStatus (n / 32)) ||| BitVec.ofNat 32 (2 ^ (n % 32)))

theorem State.statusSet_evStatus {s : State} (w : s.regsWf) (n : Nat) : (s.statusSet n).evStatus n = true := by
  rw [State.evStatus, State.statusSet, State.reg_setReg_same w.1, bit, BitVec.getLsbD_or, BitVec.getLsbD_ofNat, Nat.testBit_two_pow_self]
  simp [Nat.mod_lt]

theorem State.statusSet_keepsStatus (s : State) (n : Nat) : KeepsStatus s (s.statusSet n) where
  wf := fun w => State.setReg_regsWf w _ _
  status := fun w m _ hs => by
    by_cases hg : m / 32 = n / 32
    · rw [State.evStatus, hg] at hs ⊢
      rw [State.statusSet, State.reg_setReg_same w.1, bit, BitVec.getLsbD_or]
      rw [bit] at hs
      simp [hs]
    · rwa [State.evStatus, State.statusSet, s.reg_setReg_ne _ (by simp only [idEvStatus]; omega)]

/-- The four writes that capture an event after its status bit is set. -/
theorem State.capture_keepsStatus (s : State) (n : Nat) (a b c d : Word) :
    KeepsStatus s ((((s.setReg (idCap n 0) a).setReg (idCap n 1) b).setReg (idCap n 2) c).setReg (idCap n 3) d) :=
  (((s.setCap_keepsStatus n 0 a).trans (State.setCap_keepsStatus _ n 1 b)).trans (State.setCap_keepsStatus _ n 2 c)).trans
    (State.setCap_keepsStatus _ n 3 d)

theorem State.evRecord_keepsStatus (s : State) (n : Nat) (lo hi : Word) : KeepsStatus s (s.evRecord n lo hi) :=
  .ite (s.setCap_keepsStatus n 3 _) ((s.statusSet_keepsStatus n).trans (State.capture_keepsStatus _ n _ _ _ _))

/-- A recorded event has its status bit set. -/
theorem State.evRecord_evStatus {s : State} (w : s.regsWf) {n : Nat} (hn : n < 576) (lo hi : Word) : (s.evRecord n lo hi).evStatus n = true := by
  by_cases h : s.evStatus n = true
  · exact (s.evRecord_keepsStatus n lo hi).status w n hn h
  · rw [State.evRecord, if_neg h]
    exact (State.capture_keepsStatus _ n _ _ _ _).status ((s.statusSet_keepsStatus n).wf w) n hn (State.statusSet_evStatus w n)

theorem State.evRise_keepsStatus (s : State) (n : Nat) : KeepsStatus s (s.evRise n) := by
  have h : KeepsStatus s (if fatalSource n && !bit (s.reg idEvFatal) 31 then s.setReg idEvFatal (BitVec.ofNat 32 (2 ^ 31 + n)) else s) :=
    .ite (s.setReg_keepsStatus _ fun g hg => by simp only [idEvFatal, idEvStatus]; omega) (.refl s)
  exact .ite (h.trans (.ofRegs rfl)) h

theorem State.queueMsg_keepsStatus (s : State) (n : Nat) : KeepsStatus s (s.queueMsg n) := by
  refine .ite (.ofRegs rfl) ?_
  have h (p : Pool) (v : Word) : KeepsStatus s (((s.setPool 44 p).setReg (idEvLost (n / 32)) v).evRecord 97 0 0) :=
    ((s.setPool_keepsStatus 44 p).trans (State.setLost_keepsStatus _ _ v)).trans (State.evRecord_keepsStatus _ 97 0 0)
  exact .ite ((h _ _).trans (State.evRise_keepsStatus _ 97)) (h _ _)

theorem State.nvmRecord_keepsStatus (s : State) (page : Nat) (b : List Byte) : KeepsStatus s (s.nvmRecord page b) := by
  refine .ite (s.addCtr_keepsStatus _ 1) (.ofRegs ?_)
  unfold State.nvmSubmit
  dsimp only
  split
  · rfl
  · split <;> rfl

theorem State.drainInbox_keepsStatus (s : State) : KeepsStatus s s.drainInbox := by
  refine .ite ?_ (.refl s)
  refine KeepsStatus.trans (t := { s with evu := { s.evu with inbox := [] } }) (.ofRegs rfl) ?_
  generalize s.evu.inbox.filter fatalSource = l
  generalize { s with evu := { s.evu with inbox := [] } } = t
  induction l generalizing t with
  | nil => exact .refl t
  | cons n l ih =>
    refine KeepsStatus.trans (.trans ?_ (State.nvmRecord_keepsStatus _ _ _)) (ih _)
    exact KeepsStatus.trans (.ofRegs (t.setCnt_regs _ _)) (State.nvmRecord_keepsStatus _ _ _)

/-- The rest of a pulse, once the event is recorded. -/
theorem State.evPulse_keepsStatus (s : State) (n : Nat) (lo hi : Word) : KeepsStatus (s.evRecord n lo hi) (s.evPulse n lo hi) :=
  .ite ((State.evRise_keepsStatus _ n).trans (.ite (State.queueMsg_keepsStatus _ n) (.refl _))) (.refl _)

theorem State.raise_keepsStatus (s : State) (n : Nat) (lo hi : Word) : KeepsStatus s (s.raise n lo hi) :=
  .ite (.refl s) (.ite (((s.evRecord_keepsStatus n lo hi).trans (s.evPulse_keepsStatus n lo hi)).trans (State.drainInbox_keepsStatus _))
    (.ite (.ofRegs rfl) (.refl s)))

/-- A raised event shows in its status, while its domain and the event unit's are up. -/
theorem State.raise_evStatus {s : State} (w : s.regsWf) {n : Nat} (hn : (severity? n).isNone = false) (h1 : s.up (srcDomain n) = true)
    (h2 : s.up dCtrl = true) (h3 : s.locked 1 = true) (lo hi : Word) : (s.raise n lo hi).evStatus n = true := by
  have hb := severity_bound hn
  rw [State.raise, if_neg (by simp [hn, h1]), if_pos (by simp [h2, h3])]
  exact ((s.evPulse_keepsStatus n lo hi).trans (State.drainInbox_keepsStatus _)).status ((s.evRecord_keepsStatus n lo hi).wf w) n hb
    (State.evRecord_evStatus w hb lo hi)

end Sys2Proof.Machine
end

section
/-!
What a read that meets wrong beats leaves of them (R329, R330), and of the registers' maps.
-/
namespace Sys2Proof.Machine

/-! ### Wrong beats -/

theorem mem_mapDel_or {α : Type} {m : List (Nat × α)} {e : Nat × α} (k : Nat) (h : e ∈ m) :
    e ∈ mapDel m k ∨ e.1 = k ∧ mapFind m k = some e.2 := by
  induction m with
  | nil => cases h
  | cons d m ih =>
    by_cases hd : d.1 = k
    · rcases List.mem_cons.1 h with rfl | h
      · exact .inr ⟨hd, by simp [mapFind, hd]⟩
      · exact .inl (by simpa [mapDel, hd] using h)
    · simp only [mapDel, mapFind, if_neg hd]
      rcases List.mem_cons.1 h with rfl | h
      · exact .inl (List.mem_cons_self ..)
      · exact (ih h).imp (List.mem_cons_of_mem _) id

theorem mapFind_filter_none {α : Type} {m : List (Nat × α)} (p : Nat × α → Bool) {k : Nat} (h : ∀ v, p (k, v) = false) :
    (mapFind (m.filter p) k).isSome = false := by
  refine Bool.eq_false_iff.2 fun hs => ?_
  obtain ⟨v, hv⟩ := Option.isSome_iff_exists.1 hs
  simpa [h v] using (List.mem_filter.1 (mem_of_mapFind hv)).2

theorem State.clean_iff (s : State) (a n : Nat) : s.clean a n = true ↔
    (∀ b, s.poisoned b = true → beatIn a n b = false) ∧ ∀ e ∈ s.dmc.upset, e.2 = true → beatIn a n e.1 = false := by
  have hp : (s.dmc.poison.all fun e => !beatIn a n e.1) = true ↔ ∀ b, s.poisoned b = true → beatIn a n b = false := by
    rw [List.all_eq_true]
    refine ⟨fun h b hb => ?_, fun h e he => ?_⟩
    · obtain ⟨_, hf⟩ := Option.isSome_iff_exists.1 hb
      simpa using h _ (mem_of_mapFind hf)
    · simpa using h e.1 (mapFind_mem he)
  rw [State.clean, Bool.and_eq_true, hp, List.all_eq_true]
  refine and_congr_right fun _ => forall₂_congr fun e _ => ?_
  cases e.2 <;> simp

theorem State.entOk_iff (s : State) (ent : Nat) : s.entOk ent = true ↔ s.clean (ent / 64 * 64) 64 = true ∨
    (mapFind s.dmc.healed ent).isSome = true ∧
      ∀ e ∈ s.dmc.upset, e.2 = true → beatIn (ent / 64 * 64) 64 e.1 = true → s.poisoned e.1 = true := by
  rw [State.entOk, Bool.or_eq_true, Bool.and_eq_true, List.all_eq_true]
  refine or_congr_right (and_congr_right fun _ => forall₂_congr fun e _ => ?_)
  cases e.2 <;> cases beatIn (ent / 64 * 64) 64 e.1 <;> simp

/-- The beats of a group of 64 bytes. -/
theorem beatIn_group {ent b : Nat} (h : beatIn (ent / 64 * 64) 64 b = true) : ent / 64 = 8 * b / 64 := by
  simp only [beatIn, decide_eq_true_eq] at h
  omega

/-- Poison stays; an upset is listed still, or was single or its beat is poisoned; nothing is healed anew; and with a newly poisoned beat
nothing of its group is healed. -/
theorem Spoils.ofBeats {s t : State} (mem : t.dmc.mem = s.dmc.mem) (old : ∀ b, s.poisoned b = true → t.poisoned b = true)
    (upset : ∀ e ∈ s.dmc.upset, e ∈ t.dmc.upset ∨ (e.2 = true → t.poisoned e.1 = true))
    (healed : ∀ ent, (mapFind t.dmc.healed ent).isSome = true → (mapFind s.dmc.healed ent).isSome = true)
    (new : ∀ b, t.poisoned b = true →
      s.poisoned b = true ∨ ∀ ent, ent / 64 = 8 * b / 64 → (mapFind t.dmc.healed ent).isSome = false) : Spoils s t := by
  have clean (a n : Nat) (h : t.clean a n = true) : s.clean a n = true := by
    rw [State.clean_iff] at h ⊢
    exact ⟨fun b hb => h.1 b (old b hb), fun e he h2 => (upset e he).elim (fun k => h.2 e k h2) fun k => h.1 _ (k h2)⟩
  refine ⟨mem, clean, fun ent h => ?_⟩
  rw [State.entOk_iff] at h ⊢
  refine h.imp (clean _ _) fun ⟨h1, h2⟩ => ⟨healed ent h1, fun e he hw hb => ?_⟩
  have ht : t.poisoned e.1 = true := (upset e he).elim (fun k => h2 e k hw hb) fun k => k hw
  refine (new _ ht).resolve_right fun k => ?_
  simp [k ent (beatIn_group hb)] at h1

/-! ### A beat that is read -/

theorem State.dcUe_dmc (s : State) (a : Nat) (scrub : Bool) : (s.dcUe a scrub).dmc = { s.dmc with
    poison := mapPut s.dmc.poison (a / 8) ()
    healed := if s.poisoned (a / 8) = true then s.dmc.healed else s.dmc.healed.filter fun e => e.1 / 64 != a / 64 } := by
  unfold State.dcUe
  dsimp only
  rw [(State.raiseN_event _ _ _ _).dmc, State.addCtr_dmc, State.logErr_dmc]
  rfl

theorem State.dcCe_dmc (s : State) (a : Nat) (scrub : Bool) :
    (s.dcCe a scrub).dmc = { s.dmc with ceRaised := (s.dcCe a scrub).dmc.ceRaised } := by
  unfold State.dcCe
  dsimp only
  split
  · rw [State.addCtr_dmc, State.logErr_dmc]
  · rw [(State.raiseN_event _ _ _ _).dmc, State.addCtr_dmc, State.logErr_dmc]

/-- The state with what is known of beat b's bits forgotten. -/
def State.forget (s : State) (b : Nat) : State := { s with dmc := { s.dmc with upset := mapDel s.dmc.upset b } }

theorem State.beatErr_cases (s : State) (b : Nat) (scrub : Bool) :
    s.beatErr b scrub = (s.forget b).dcUe (8 * b) scrub ∨
    (mapFind s.dmc.upset b = some false ∧ s.beatErr b scrub = (s.forget b).dcCe (8 * b) scrub) ∨ s.beatErr b scrub = s := by
  unfold State.beatErr
  dsimp only
  split
  · exact .inl rfl
  · split
    · exact .inl rfl
    · next h => exact .inr (.inl ⟨h, rfl⟩)
    · exact .inr (.inr rfl)

theorem State.forgetUe_spoils (s : State) (b : Nat) (scrub : Bool) : Spoils s ((s.forget b).dcUe (8 * b) scrub) := by
  have hb : 8 * b / 8 = b := by omega
  have hd := (s.forget b).dcUe_dmc (8 * b) scrub
  rw [hb] at hd
  have hp (k : Nat) : ((s.forget b).dcUe (8 * b) scrub).poisoned k = true ↔ k = b ∨ s.poisoned k = true := by
    rw [State.poisoned, hd]
    by_cases hk : k = b
    · simp [hk, mapFind_mapPut_same]
    · simp [hk, mapFind_mapPut_ne, State.forget, State.poisoned]
  refine .ofBeats (by rw [hd]; rfl) (fun k hk => (hp k).2 (.inr hk)) (fun e he => ?_) (fun ent he => ?_) fun k hk => ?_
  · rw [hd]
    exact (mem_mapDel_or b he).imp id fun h _ => (hp _).2 (.inl h.1)
  · rw [hd] at he
    dsimp only at he
    split at he
    · exact he
    · exact mapFind_filter he
  · by_cases hs : s.poisoned k = true
    · exact .inl hs
    · obtain rfl := ((hp k).1 hk).resolve_right hs
      refine .inr fun ent he => ?_
      have hs' : ¬ (s.forget k).poisoned k = true := hs
      rw [hd, if_neg hs']
      exact mapFind_filter_none _ (by simpa using he)

theorem State.forgetCe_spoils {s : State} {b : Nat} (h : mapFind s.dmc.upset b = some false) (scrub : Bool) :
    Spoils s ((s.forget b).dcCe (8 * b) scrub) := by
  have hd := (s.forget b).dcCe_dmc (8 * b) scrub
  have hp (k : Nat) : ((s.forget b).dcCe (8 * b) scrub).poisoned k = s.poisoned k := by rw [State.poisoned, hd]; rfl
  refine .ofBeats (by rw [hd]; rfl) (fun k hk => (hp k).trans hk) (fun e he => ?_) (fun ent he => ?_) fun k hk => .inl ((hp k).symm.trans hk)
  · rw [hd]
    refine (mem_mapDel_or b he).imp id fun ⟨_, h2⟩ h3 => ?_
    rw [h, h3] at h2
    cases h2
  · rw [hd] at he
    exact he

theorem State.beatErr_spoils (s : State) (b : Nat) (scrub : Bool) : Spoils s (s.beatErr b scrub) := by
  rcases s.beatErr_cases b scrub with h | ⟨hf, h⟩ | h <;> rw [h]
  · exact s.forgetUe_spoils b scrub
  · exact State.forgetCe_spoils hf scrub
  · exact .refl s

theorem State.readErr_spoils (s : State) (a n : Nat) (scrub : Bool) (counts : Nat → Bool) : Spoils s (s.readErr a n scrub counts) := by
  unfold State.readErr
  generalize s.badBeats a n = l
  induction l generalizing s with
  | nil => exact .refl s
  | cons e l ih =>
    refine Spoils.trans ?_ (ih _)
    dsimp only
    split
    · exact s.beatErr_spoils _ _
    · exact .refl s

theorem State.devRead_spoils (s : State) (w : DClient) (a ent : Nat) : Spoils s (s.devRead w a ent) :=
  (((s.charge_charged w _ _ _).spoils.trans (State.readErr_spoils _ _ _ _ _)).trans (State.charge_charged _ w _ _ _).spoils).trans
    (State.readErr_spoils _ _ _ _ _)

/-! ### The registers' maps -/

theorem State.logErr_keepsStatus (s : State) (a : Nat) (ue scrub : Bool) : KeepsStatus s (s.logErr a ue scrub) := by
  have hd := dramPc_half a
  have h (s : State) (v : Word) {id : Nat} (hi : id < 0x7400) : KeepsStatus s (s.setReg id v) :=
    s.setReg_keepsStatus v fun g _ => by simp only [idEvStatus]; omega
  exact ((h s _ (by simp only [idErrInfo]; omega)).trans (h _ _ (by simp only [idErrAddrLo]; omega))).trans
    (h _ _ (by simp only [idErrAddrHi]; omega))

theorem State.setDmc_keepsStatus (s : State) (d : Dmc) : KeepsStatus s { s with dmc := d } := .ofRegs rfl

theorem State.dcUe_keepsStatus (s : State) (a : Nat) (scrub : Bool) : KeepsStatus s (s.dcUe a scrub) := by
  unfold State.dcUe
  exact (((s.setDmc_keepsStatus _).trans (State.logErr_keepsStatus _ a true scrub)).trans (State.addCtr_keepsStatus _ _ 1)).trans
    (State.raise_keepsStatus _ _ _ _)

theorem State.dcCe_keepsStatus (s : State) (a : Nat) (scrub : Bool) : KeepsStatus s (s.dcCe a scrub) := by
  have h := (s.logErr_keepsStatus a false scrub).trans (State.addCtr_keepsStatus _ (idDcCe (dramPc a / 2)) 1)
  unfold State.dcCe
  exact .ite h ((h.trans (State.setDmc_keepsStatus _ _)).trans (State.raise_keepsStatus _ _ _ _))

theorem State.beatErr_keepsStatus (s : State) (b : Nat) (scrub : Bool) : KeepsStatus s (s.beatErr b scrub) := by
  have hf : KeepsStatus s (s.forget b) := .ofRegs rfl
  rcases s.beatErr_cases b scrub with h | ⟨_, h⟩ | h <;> rw [h]
  · exact hf.trans (State.dcUe_keepsStatus _ _ _)
  · exact hf.trans (State.dcCe_keepsStatus _ _ _)
  · exact .refl s

theorem State.readErr_keepsStatus (s : State) (a n : Nat) (scrub : Bool) (counts : Nat → Bool) :
    KeepsStatus s (s.readErr a n scrub counts) := by
  unfold State.readErr
  generalize s.badBeats a n = l
  induction l generalizing s with
  | nil => exact .refl s
  | cons e l ih => exact (KeepsStatus.ite (s.beatErr_keepsStatus _ _) (.refl s)).trans (ih _)

theorem Charged.keepsStatus {s t : State} (h : Charged s t) : KeepsStatus s t := by
  unfold Charged at h
  exact .ofHeld (by rw [h]) fun w => by rw [h]; exact w.2

theorem State.devRead_keepsStatus (s : State) (w : DClient) (a ent : Nat) : KeepsStatus s (s.devRead w a ent) :=
  (((s.charge_charged w _ _ _).keepsStatus.trans (State.readErr_keepsStatus _ _ _ _ _)).trans
    (State.charge_charged _ w _ _ _).keepsStatus).trans (State.readErr_keepsStatus _ _ _ _ _)

end Sys2Proof.Machine
end

section
/-!
A block that an engine's fetch Developer reads (R33, R179, R181, R208): when it is fetched, and what its delivery leaves behind.
-/
namespace Sys2Proof.Machine

/-! ### The texel cache -/

/-- While there is room nothing is dropped. -/
theorem State.fillTexels_room (s : State) (n : Fin 96) {a size : Nat} (h : ((s.caches.texels[n]).map Prod.snd).sum + size ≤ 262144) :
    (s.fillTexels n a size).caches.texels[n] = (a, size) :: s.caches.texels[n] := by
  have hs : (((a, size) :: s.caches.texels[n]).map Prod.snd).sum ≤ 262144 := by
    rw [List.map_cons, List.sum_cons, Nat.add_comm]
    exact h
  refine (Vector.getElem_set_self _).trans ?_
  rw [texelRoom, if_pos hs]

theorem State.fillTexels_others (s : State) {n k : Fin 96} (a size : Nat) (h : k ≠ n) :
    (s.fillTexels n a size).caches.texels[k] = s.caches.texels[k] :=
  Vector.getElem_set_ne n.isLt _ fun e => h (Fin.ext e.symm)

/-! ### The command -/

/-- The state in which a block at slot address a, with its entry at ent, has been read for strip x of quadrant q. -/
def State.fetchRead (s : State) (q : Fin 4) (x : Strip) (a ent : Nat) : State :=
  (s.setEasel q ((s.easel q).fetchedBy x a)).devRead (.fetch q) a ent

/-- Cluster c's cache takes the block at a of a plane. -/
def State.fillCluster (s : State) (c : Fin 12) (p : PlaneRef) (a : Nat) : State :=
  { s with caches := { s.caches with clusters := s.caches.clusters.set c (s.caches.clusters[c].fill (wayOwner p) a) } }

theorem State.fillCluster_texels (s : State) (c : Fin 12) (p : PlaneRef) (a : Nat) :
    (s.fillCluster c p a).caches.texels = s.caches.texels := rfl

/-- The caches of engine n and of cluster c take the block at a. -/
def State.keepBlock (s : State) (n : Fin 96) (c : Fin 12) (p : PlaneRef) (pl : Plane) (a : Nat) : State :=
  (s.fillCluster c p a).fillTexels n a (texelBytes p pl)

/-- What becomes of a block that was read: it is kept, or counted and reported. -/
def State.deliver (s : State) (n : Fin 96) (c : Fin 12) (p : PlaneRef) (pl : Plane) (blk : Nat) : State :=
  let a := pl.addr + 512 * blk
  match s.readPlane pl blk with
  | .bytes _ => s.keepBlock n c p pl a
  | .invalid => (s.addCtr (idDevInvalid c.val) 1).raiseN 321 a (a / 2 ^ 32)
  | .uncorr => (s.addCtr (idDevUncorr c.val) 1).raiseN 322 a (a / 2 ^ 32)

section
variable {s : State} {n : Fin 96} {p : PlaneRef} {blk : Nat} {pl : Plane} {q : Fin 4} {c : Fin 12} {x : Strip}

theorem exec_developerFetch (hq : q.val = n.val / 24) (hc : c.val = n.val / 8) (hp : s.fetchPlane p = some pl) (hx : s.fetchFor n p blk = some x) :
    exec (.developerFetch n p blk) s = .next (
      if s.up (dEc c.val) && s.locked 4 && s.room (.fetch q) ((pl.ent + 2 * blk) / 64 * 64) 64 &&
          s.room (.fetch q) (pl.addr + 512 * blk) (s.slotLen (pl.ent + 2 * blk)) &&
          !s.caches.texels[n].any fun l => l.1 == pl.addr + 512 * blk
      then (s.fetchRead q x (pl.addr + 512 * blk) (pl.ent + 2 * blk)).deliver n c p pl blk else s) := by
  obtain rfl : q = Fin.ofNat 4 (n.val / 24) := Fin.ext (by simp only [Fin.ofNat]; omega)
  obtain rfl : c = Fin.ofNat 12 (n.val / 8) := Fin.ext (by simp only [Fin.ofNat]; omega)
  change execDeveloperFetch n p blk s = _
  rw [execDeveloperFetch, hp, hx, State.fetchRead]
  dsimp only
  generalize State.devRead _ _ _ _ = u
  unfold State.deliver
  cases u.readPlane pl blk <;> rfl

theorem exec_developerFetch_idle (hp : s.fetchPlane p = some pl) (hx : s.fetchFor n p blk = none) :
    exec (.developerFetch n p blk) s = .next s := by
  change execDeveloperFetch n p blk s = _
  rw [execDeveloperFetch, hp, hx]

theorem State.deliver_bytes {b : List Byte} (h : s.readPlane pl blk = .bytes b) :
    s.deliver n c p pl blk = s.keepBlock n c p pl (pl.addr + 512 * blk) := by simp only [State.deliver, h]

theorem State.deliver_invalid (h : s.readPlane pl blk = .invalid) : s.deliver n c p pl blk =
    (s.addCtr (idDevInvalid c.val) 1).raiseN 321 (pl.addr + 512 * blk) ((pl.addr + 512 * blk) / 2 ^ 32) := by simp only [State.deliver, h]

theorem State.deliver_uncorr (h : s.readPlane pl blk = .uncorr) : s.deliver n c p pl blk =
    (s.addCtr (idDevUncorr c.val) 1).raiseN 322 (pl.addr + 512 * blk) ((pl.addr + 512 * blk) / 2 ^ 32) := by simp only [State.deliver, h]

theorem EventEffect.easels {s t : State} (h : EventEffect s t) : t.easels = s.easels := by rw [h.rest]

/-- A delivery moves no Easel and stores no byte. -/
theorem State.deliver_frame : (s.deliver n c p pl blk).easels = s.easels ∧ (s.deliver n c p pl blk).dmc = s.dmc := by
  cases h : s.readPlane pl blk
  case bytes => rw [State.deliver_bytes h]; exact ⟨rfl, rfl⟩
  case invalid => rw [State.deliver_invalid h, (State.raiseN_event _ _ _ _).easels, (State.raiseN_event _ _ _ _).dmc]; exact ⟨rfl, rfl⟩
  case uncorr => rw [State.deliver_uncorr h, (State.raiseN_event _ _ _ _).easels, (State.raiseN_event _ _ _ _).dmc]; exact ⟨rfl, rfl⟩

theorem State.fetchRead_easels (a ent : Nat) : (s.fetchRead q x a ent).easels = s.easels.set q ((s.easel q).fetchedBy x a) := by
  rw [State.fetchRead, (State.devRead_dram _ _ _ _).rest]
  rfl

theorem State.fetchRead_mem (a ent : Nat) : (s.fetchRead q x a ent).dmc.mem = s.dmc.mem := State.devRead_mem _ _ _ _

/-! ### A block that is delivered -/

/-- All that keeping a block changes. -/
theorem State.keepBlock_frame (a : Nat) : s.keepBlock n c p pl a =
    { s with fresh := (s.keepBlock n c p pl a).fresh, caches := (s.keepBlock n c p pl a).caches } := rfl

theorem Charged.readPlane {s t : State} (h : Charged s t) (pl : Plane) (b : Nat) : t.readPlane pl b = s.readPlane pl b := by
  unfold Charged at h
  rw [h]; rfl

theorem Charged.caches {s t : State} (h : Charged s t) : t.caches = s.caches := by
  unfold Charged at h
  rw [h]

/-- Charging a read in v, which is s but for its Easels, and keeping what it read in t. -/
theorem Charged.kept {s v u t : State} (h : v = { s with easels := v.easels }) (k : Charged v u)
    (e : t = { u with fresh := t.fresh, caches := t.caches }) :
    t = { s with easels := t.easels, caches := t.caches, fresh := t.fresh, dmc := u.dmc, pools := u.pools
                 regs := { s.regs with live := u.regs.live, clock := u.regs.clock } } := by
  unfold Charged at k
  rw [e, k, h]

theorem State.keepBlock_room (a : Nat) (h : ((s.caches.texels[n]).map Prod.snd).sum + texelBytes p pl ≤ 262144) :
    (s.keepBlock n c p pl a).caches.texels[n] = (a, texelBytes p pl) :: s.caches.texels[n] := by
  rw [← s.fillCluster_texels c p a] at h ⊢
  exact State.fillTexels_room _ n h

theorem State.keepBlock_others {k : Fin 96} (a : Nat) (h : k ≠ n) :
    (s.keepBlock n c p pl a).caches.texels[k] = s.caches.texels[k] := by
  rw [← s.fillCluster_texels c p a]
  exact State.fillTexels_others _ a _ h

/-- Where no beat is wrong, the read is charged and does nothing else. -/
theorem State.fetchRead_charged {a ent : Nat} (h1 : s.badBeats (ent / 64 * 64) 64 = []) (h2 : s.badBeats a (s.slotLen ent) = []) :
    Charged (s.setEasel q ((s.easel q).fetchedBy x a)) (s.fetchRead q x a ent) :=
  State.devRead_charged (s := s.setEasel q _) h1 h2 _

/-! ### A block that is not -/

/-- A block that could not be read for an uncorrectable error is not delivered. -/
theorem State.fetchRead_uncorr (a ent : Nat) (h : s.readPlane pl blk = .uncorr) : (s.fetchRead q x a ent).readPlane pl blk = .uncorr :=
  (State.devRead_spoils _ _ _ _).readBlk_uncorr (s := s.setEasel q _) h

theorem State.fetchRead_pmu (a ent : Nat) : (s.fetchRead q x a ent).pmu = s.pmu := by
  rw [State.fetchRead, (State.devRead_dram _ _ _ _).rest]
  rfl

theorem State.fetchRead_regsWf (w : s.regsWf) (a ent : Nat) : (s.fetchRead q x a ent).regsWf := (State.devRead_keepsStatus _ _ _ _).wf w

/-- A read advances the errors' counts and the count of lost records, and no other. -/
theorem State.fetchRead_ctr (a ent : Nat) {id : Nat} (h1 : 0x3400 ≤ id) (h2 : id < 0x3800) : (s.fetchRead q x a ent).ctr id = s.ctr id :=
  (State.devRead_dram _ _ _ _).ctr id (by simp only [idProtRefused]; omega) fun d hd => by simp only [idDcUe, idDcCe]; omega

/-- A counter that advances by one and the source that reports it: the source's status is set while its domain and the event unit's are
up. -/
theorem State.count_report {s : State} (w : s.regsWf) {id m : Nat} (a b : Nat) (hid : id ≠ idProtRefused)
    (hm : (severity? m).isNone = false) :
    EventEffect (s.addCtr id 1) ((s.addCtr id 1).raiseN m a b) ∧
    ((s.addCtr id 1).raiseN m a b).ctr id = (s.ctr id + 1) % 2 ^ 64 ∧
    (s.up dCtrl = true → s.locked 1 = true → s.up (srcDomain m) = true → ((s.addCtr id 1).raiseN m a b).evStatus m = true) := by
  have he := State.raiseN_event (s.addCtr id 1) m a b
  refine ⟨he, ?_, fun h1 h2 h3 => ?_⟩
  · rw [he.ctr id hid, State.ctr_addCtr_same w.2]
  · exact State.raise_evStatus ((s.addCtr_keepsStatus id 1).wf w) hm h3 h1 h2 _ _

/-- The report of a block that was not delivered, by a counter of the fetch Developers and an event of the fabric. -/
theorem State.fetchRead_report (w : s.regsWf) (a ent : Nat) {id m : Nat} (h1 : 0x3400 ≤ id) (h2 : id < 0x3800)
    (hm : (severity? m).isNone = false) (hd : srcDomain m = dFab) :
    let u := (s.fetchRead q x a ent).addCtr id 1
    let t := u.raiseN m a (a / 2 ^ 32)
    EventEffect u t ∧ t.ctr id = (s.ctr id + 1) % 2 ^ 64 ∧
    (s.up dCtrl = true → s.locked 1 = true → s.up dFab = true → t.evStatus m = true) := by
  have h := State.count_report (State.fetchRead_regsWf (q := q) (x := x) w a ent) a (a / 2 ^ 32)
    (show id ≠ idProtRefused by simp only [idProtRefused]; omega) hm
  simpa only [State.fetchRead_ctr a ent h1 h2, State.up, State.locked, State.fetchRead_pmu, hd] using h

theorem idDevInvalid_bounds (c : Fin 12) : 0x3400 ≤ idDevInvalid c.val ∧ idDevInvalid c.val < 0x3800 := by
  simp only [idDevInvalid]
  omega

theorem idDevUncorr_bounds (c : Fin 12) : 0x3400 ≤ idDevUncorr c.val ∧ idDevUncorr c.val < 0x3800 := by
  simp only [idDevUncorr]
  omega

theorem State.regsWf_of_canonical {s : State} (h : s.canonical = true) : s.regsWf :=
  have hr := (RegFile.canonical_iff _).1 ((State.canonical_iff s).1 h).1
  ⟨hr.1, hr.2.1⟩

/-! ### When a block is fetched -/

theorem exec_developerFetch_read (hq : q.val = n.val / 24) (hc : c.val = n.val / 8) (hp : s.fetchPlane p = some pl)
    (hx : s.fetchFor n p blk = some x) (hh : ((s.caches.texels[n]).any fun l => l.1 == pl.addr + 512 * blk) = false)
    (h1 : s.up (dEc c.val) = true) (h2 : s.locked 4 = true)
    (hr : (s.room (.fetch q) ((pl.ent + 2 * blk) / 64 * 64) 64 &&
      s.room (.fetch q) (pl.addr + 512 * blk) (s.slotLen (pl.ent + 2 * blk))) = true) :
    exec (.developerFetch n p blk) s = .next ((s.fetchRead q x (pl.addr + 512 * blk) (pl.ent + 2 * blk)).deliver n c p pl blk) := by
  rw [Bool.and_eq_true] at hr
  rw [exec_developerFetch hq hc hp hx, if_pos (by simp only [h1, h2, hr.1, hr.2, hh, Bool.not_false, Bool.and_self])]

/-- No strip needs the block, the texel cache holds it, or the scheduler has no tokens for it. -/
theorem exec_developerFetch_none (hq : q.val = n.val / 24) (hc : c.val = n.val / 8) (hp : s.fetchPlane p = some pl)
    (h : s.fetchFor n p blk = none ∨ ((s.caches.texels[n]).any fun l => l.1 == pl.addr + 512 * blk) = true ∨
      (s.room (.fetch q) ((pl.ent + 2 * blk) / 64 * 64) 64 &&
        s.room (.fetch q) (pl.addr + 512 * blk) (s.slotLen (pl.ent + 2 * blk))) = false) :
    exec (.developerFetch n p blk) s = .next s := by
  cases hx : s.fetchFor n p blk
  case none => exact exec_developerFetch_idle hp hx
  case some x =>
    rw [exec_developerFetch hq hc hp hx, if_neg ?_]
    rcases h with h | h | h
    · rw [hx] at h; cases h
    · simp only [h, Bool.not_true, Bool.and_false, Bool.false_eq_true, not_false_eq_true]
    · rw [Bool.and_assoc _ (s.room _ _ _) (s.room _ _ _), h]
      simp

end

end Sys2Proof.Machine

open Sys2Proof Sys2Proof.Machine

/-- Settles O42: all that is done on a sent line keeps which rows and strips its Easel has, so the lines free after it decide the next row;
a fetched block is charged to its class, and a read can only spoil what reads later, so what was lost before the fetch is reported. -/
theorem sentLinesReturnAndFetchesReport : Obligations.SentLinesReturnAndFetchesReport := by
  refine ⟨fun s q hr hst => ?lines, fun s n p blk pl q c hcan hq hc hp => ?fetches⟩
  case lines =>
    intro e held
    refine ⟨exec_lineSent_idle, fun h1 h2 => ?_⟩
    have h := s.lineDone_returned q
    by_cases hrow : e.st = .running ∧ e.nextRow < s.qh ∧ held ≤ 48
    · obtain ⟨hrun, hn, hf⟩ := hrow
      have hex := exec_lineSent_row hr hrun h1 h2 hn hf
      generalize s.lineDone q = d at h hex
      refine ⟨d.withRow q s.qw, hex, ?_, ?_, fun z hz => ?_, fun hno => ?_, fun _ _ _ => ⟨?_, ?_, ?_, ?_⟩⟩
      · rw [State.easels_get, State.withRow_easel, Easel.withRow_sentLines, h.sentLines]; rfl
      · rw [State.withRow_plates, h.plates]
      · rw [State.withRow_others _ _ hz, h.others z hz]
      · rw [hrun] at hno
        exact absurd (hno.resolve_left nofun) (by omega)
      · rw [State.withRow_lines, h.lines]
      · rw [State.withRow_tokens, h.tokens]
      · rw [State.easels_get, State.withRow_easel, Easel.withRow_nextRow, h.nextRow]; rfl
      · rw [State.easels_get, State.withRow_easel, Easel.withRow_strips, h.nextRow, h.strips]; rfl
    · have hno : e.st = .aborted ∨ s.qh ≤ e.nextRow ∨ 48 < held := by
        cases hs : e.st
        case idle => exact absurd hs hst
        case aborted => exact .inl rfl
        case running => simp only [hs, true_and] at hrow; omega
      exact ⟨_, exec_lineSent_noRow hr hst h1 h2 hno, h.sentLines, h.plates, h.others,
        fun _ => ⟨h.lines, h.tokens, h.nextRow, h.strips⟩, fun a b c => absurd ⟨a, b, c⟩ hrow⟩
  case fetches =>
    intro a ent held room
    refine ⟨exec_developerFetch_none hq hc hp, fun x hx hh h1 h2 hr => ?_⟩
    have hex := exec_developerFetch_read hq hc hp hx hh h1 h2 hr
    obtain ⟨heasels, hdmc⟩ := (s.fetchRead q x a ent).deliver_frame (n := n) (p := p) (blk := blk) (pl := pl) (c := c)
    have hset := heasels.trans (State.fetchRead_easels a ent)
    have hu : ({ s with easels := ((s.fetchRead q x a ent).deliver n c p pl blk).easels } : State).devRead (.fetch q) a ent =
        s.fetchRead q x a ent := by rw [hset]; rfl
    have hwf := State.regsWf_of_canonical hcan
    refine ⟨_, hex, hset, fun b => ?_, fun g1 g2 ⟨b, hb⟩ => ?_, fun g1 g2 hb => ?_, fun hb => ?_⟩
    · rw [State.dramByte, hdmc, State.fetchRead_mem, State.dramByte]
    · have k := State.fetchRead_charged (q := q) (x := x) g1 g2
      rw [hu, State.deliver_bytes ((k.readPlane pl blk).trans hb)]
      have hcache : (s.fetchRead q x a ent).caches = s.caches := k.caches
      refine ⟨Charged.kept rfl k (State.keepBlock_frame a), fun hroom => ?_, fun j hj => ?_⟩
      · rw [State.keepBlock_room a (hcache ▸ hroom), hcache]
      · rw [State.keepBlock_others a hj, hcache]
    · have k := State.fetchRead_charged (q := q) (x := x) g1 g2
      rw [hu, State.deliver_invalid ((k.readPlane pl blk).trans hb)]
      exact State.fetchRead_report hwf a ent (idDevInvalid_bounds c).1 (idDevInvalid_bounds c).2 (by decide) (by decide)
    · rw [hu, State.deliver_uncorr (State.fetchRead_uncorr a ent hb)]
      exact State.fetchRead_report hwf a ent (idDevUncorr_bounds c).1 (idDevUncorr_bounds c).2 (by decide) (by decide)
end

section
/-!
Results in the stack (R311, R385): the request of a store names exactly the bytes to be stored, so each of them reads as stored.
-/
namespace Sys2Proof.Machine

theorem testBit_maskOf (l : List Nat) (k : Nat) : (maskOf l).testBit k = decide (k ∈ l) := by
  have h (a : Nat) : (l.foldl (fun a i => a ||| 2 ^ i) a).testBit k = (a.testBit k || decide (k ∈ l)) := by
    induction l generalizing a with
    | nil => simp
    | cons i l ih => rw [List.foldl_cons, ih]; simp [Nat.testBit_two_pow, Bool.or_assoc, eq_comm]
  simpa [maskOf] using h 0

/-- The request that a store of a row's own data makes. -/
def storeReq (w : DClient) (a : Nat) (bs : List (Option Byte)) : DramReq :=
  ⟨w, a, bs.length, maskOf ((List.range bs.length).filter fun k => (bs.getD k none).isSome), none, bs.map (·.getD 0)⟩

theorem storeReq_bytes (w : DClient) (a : Nat) (bs : List (Option Byte)) : (storeReq w a bs).bytes = bs := by
  refine List.ext_getElem (reqBytes_length _) fun k _ hk => ?_
  have hmask : (storeReq w a bs).mask.testBit k = bs[k].isSome := by
    rw [storeReq, testBit_maskOf]
    simp [hk]
  have hdata : byteAt (storeReq w a bs).data k = bs[k].getD 0 := by simp [byteAt, storeReq, hk]
  simp only [DramReq.bytes, List.getElem_map, List.getElem_range, hmask, hdata]
  cases bs[k] <;> rfl

theorem State.putReq_mem (s : State) (r : DramReq) : (s.putReq r).dmc.mem = memPut s.dmc.mem r.addr r.bytes := by
  unfold State.putReq
  dsimp only
  split <;> rfl

theorem State.storeSome_mem (s : State) (w : DClient) (a : Nat) (bs : List (Option Byte)) :
    (s.storeSome w a bs).dmc.mem = memPut s.dmc.mem a bs := by
  refine (State.putReq_mem _ (storeReq w a bs)).trans ?_
  rw [storeReq_bytes, State.readErr_mem, State.charge_mem]
  rfl

theorem memPut_some (m : List Host.Cell) (a : Nat) (bs : List Byte) : memPut m a (bs.map some) = memWrite m a bs := by
  induction bs generalizing m a with
  | nil => rfl
  | cons b bs ih => exact ih _ _

/-- Each byte of a result reads as stored. -/
theorem State.dramByte_putResult_inside {s : State} (hw : mapWf dram0 s.dmc.mem = true) {a i : Nat} {bs : List Byte} (ha : a ≠ 0)
    (h : i < bs.length) : (s.putResult a bs).dramByte (a + i) = bs[i] := by
  rw [State.putResult, if_neg ha, State.dramByte, State.store, State.storeSome_mem, memPut_some, memWrite_inside hw h]

theorem State.dramByte_putResult_none (s : State) (bs : List Byte) (i : Nat) : (s.putResult 0 bs).dramByte i = s.dramByte i := rfl

theorem State.mem_wf_of_canonical {s : State} (h : s.canonical = true) : mapWf dram0 s.dmc.mem = true :=
  ((Dmc.canonical_iff _).1 ((State.canonical_iff s).1 h).2.1).1

theorem Answered.dramByte {s t : State} {c : Cmd} {status reason : Nat} {p : List Byte} (h : Answered s t c status reason p) (a : Nat) :
    t.dramByte a = s.dramByte a := by rw [h.rest]; rfl

end Sys2Proof.Machine
end

section
/-!
Refocus (R136 to R144): what a trigger, the end of a rebuild, a raster tick and REFOCUS_READ do, each said once by its cases.
-/
namespace Sys2Proof.Machine

/-! ### A trigger (R137, R141) -/

section
variable {s : State}

theorem exec_rfcForceWrite (h : s.up dCtrl = true) : exec .rfcForceWrite s = .next s.rfcTrigger :=
  congrArg Host.Outcome.next (if_pos h)

theorem State.rfcTrigger_frozen (h : bit (s.reg idRfcCtrl) 1 = true ∨ s.fw = false) :
    s.rfcTrigger = { s with rfc := { s.rfc with kept := true } } :=
  if_pos (by simpa using h)

theorem State.rfcTrigger_building (hz : bit (s.reg idRfcCtrl) 1 = false) (hf : s.fw = true)
    (h : s.rfc.busy = true ∨ s.rfc.ready = true) : s.rfcTrigger = s :=
  (if_neg (by simp [hz, hf])).trans (if_pos (by simpa using h))

theorem State.rfcTrigger_idle (hz : bit (s.reg idRfcCtrl) 1 = false) (hf : s.fw = true) (hb : s.rfc.busy = false)
    (hr : s.rfc.ready = false) : s.rfcTrigger = s.rfcBegin :=
  (if_neg (by simp [hz, hf])).trans (if_neg (by simp [hb, hr]))

/-- With ENABLE = 0 the rebuild writes identity entries. -/
theorem State.rfcBegin_disabled (h : bit (s.reg idRfcCtrl) 0 = false) : s.rfcBegin.rfc.building.entries = [] :=
  if_neg (by simp [h])

theorem State.rfcKept_of_not_kept (h : s.rfc.kept = false) : s.rfcKept = s :=
  if_neg (by simp [h])

end

/-! ### The tables (R133, R138) -/

theorem State.rfcTab_setRfcTab_active (s : State) (c d : Fin 12) (g : RfGen) :
    (s.setRfcTab c false g).rfcTab d true = s.rfcTab d true := by
  cases h : s.rfc.active <;> simp [State.setRfcTab, State.rfcTab, h]

theorem State.rfcTab_setRfcTab_inactive (s : State) (c d : Fin 12) (g : RfGen) :
    (s.setRfcTab c false g).rfcTab d false = if d = c then g else s.rfcTab d false := by
  have hset (v : Vector RfGen 12) : (v.set c g)[d] = if d = c then g else v[d] := by
    simp [Vector.getElem_set, Fin.ext_iff, eq_comm]
  cases h : s.rfc.active
  case false => simpa [State.setRfcTab, State.rfcTab, h] using hset s.rfc.tabB
  case true => simpa [State.setRfcTab, State.rfcTab, h] using hset s.rfc.tabA

/-- Writing a table changes the tables alone. -/
theorem State.setRfcTab_frame (s : State) (c : Fin 12) (x : Bool) (g : RfGen) : s.setRfcTab c x g =
    { s with rfc := { s.rfc with tabA := (s.setRfcTab c x g).rfc.tabA, tabB := (s.setRfcTab c x g).rfc.tabB } } := by
  unfold State.setRfcTab
  split <;> rfl

/-- The generation being built stands in the inactive table of the powered ones among clusters l, and nothing else has changed. -/
structure TablesBuilt (l : List (Fin 12)) (s t : State) : Prop where
  rest : t = { s with rfc := { s.rfc with tabA := t.rfc.tabA, tabB := t.rfc.tabB } }
  active : ∀ c, t.rfcTab c true = s.rfcTab c true
  inactive : ∀ c, t.rfcTab c false = if c ∈ l ∧ s.up (dEc c.val) = true then s.rfc.building else s.rfcTab c false

/-- One cluster's table is written before those of the others. -/
theorem TablesBuilt.cons {c : Fin 12} {l : List (Fin 12)} {s t : State} (hc : s.up (dEc c.val) = true)
    (h : TablesBuilt l (s.setRfcTab c false s.rfc.building) t) : TablesBuilt (c :: l) s t := by
  have hf := s.setRfcTab_frame c false s.rfc.building
  have hup (d : Nat) : (s.setRfcTab c false s.rfc.building).up d = s.up d := by rw [hf]; rfl
  have hb : (s.setRfcTab c false s.rfc.building).rfc.building = s.rfc.building := by rw [hf]
  refine ⟨h.rest.trans (by rw [hf]), fun d => ?_, fun d => ?_⟩
  · rw [h.active, s.rfcTab_setRfcTab_active]
  · rw [h.inactive, s.rfcTab_setRfcTab_inactive, hup, hb]
    by_cases hd : d = c
    · simp [hd, hc]
    · simp [hd]

/-- A cluster that is not powered gets no table. -/
theorem TablesBuilt.cons_off {c : Fin 12} {l : List (Fin 12)} {s t : State} (hc : ¬ s.up (dEc c.val) = true)
    (h : TablesBuilt l s t) : TablesBuilt (c :: l) s t := by
  refine ⟨h.rest, h.active, fun d => ?_⟩
  rw [h.inactive]
  by_cases hd : d = c
  · simp [hd, hc]
  · simp [hd]

theorem State.rfcWrite_built (s : State) : TablesBuilt (List.finRange 12) s s.rfcWrite := by
  unfold State.rfcWrite
  generalize List.finRange 12 = l
  induction l generalizing s with
  | nil => exact ⟨rfl, fun _ => rfl, fun _ => by simp⟩
  | cons c l ih =>
    rw [List.foldl_cons]
    split
    case isTrue hc => exact .cons hc (ih _)
    case isFalse hc => exact .cons_off hc (ih s)

/-- The state after a rebuild has ended. -/
def State.rfcBuilt (s : State) : State :=
  { s.rfcWrite with rfc := { s.rfcWrite.rfc with ready := true, readyAt := s.rfcWrite.now, used := s.rfcWrite.rfc.buildTemps } }

theorem exec_refocusRebuildDone {s : State} (hf : s.fw = true) (hb : s.rfc.busy = true) (hr : s.rfc.ready = false) :
    exec .refocusRebuildDone s = .next s.rfcBuilt :=
  congrArg Host.Outcome.next (if_pos (by simp [hf, hb, hr]))

/-! ### A raster tick (R139, R140) -/

/-- The tables swapped, with no rebuild left. -/
def State.rfcSwapped (s : State) : State :=
  { s with rfc := { s.rfc with active := !s.rfc.active, ready := false, busy := false, genActive := s.rfc.building.gen,
                               history := (s.rfc.building :: s.rfc.history).take 4 } }

theorem State.rfcTab_rfcSwapped (s : State) (c : Fin 12) (x : Bool) : s.rfcSwapped.rfcTab c x = s.rfcTab c !x := by
  unfold State.rfcTab State.rfcSwapped
  dsimp only
  cases s.rfc.active <;> cases x <;> rfl

theorem EventEffect.rfc {s t : State} (h : EventEffect s t) : t.rfc = s.rfc := by rw [h.rest]

section
variable {s : State} {m : TickMsg}

theorem State.rfcTick_swap (hm : m.swap = true) (hr : s.rfc.ready = true) (hk : s.rfc.kept = false) :
    s.rfcTick m = s.rfcSwapped.raiseN 298 s.rfc.building.gen 0 := by
  have hkept : (s.rfcSwapped.raiseN 298 s.rfc.building.gen 0).rfc.kept = false := by
    rw [(State.raiseN_event _ _ _ _).rfc]
    exact hk
  exact (if_pos (by simp [hm, hr])).trans (State.rfcKept_of_not_kept hkept)

theorem State.rfcTick_late (hm : m.swap = false) (hl : m.late = true) :
    s.rfcTick m = (s.addCtr idRfcLate 1).raiseN 299 s.rfc.gen ((s.addCtr idRfcLate 1).ctr idRfcLate % 2 ^ 32) :=
  (if_neg (by simp [hm])).trans (if_pos hl)

theorem State.rfcTick_neither (hm : m.swap = false) (hl : m.late = false) : s.rfcTick m = s :=
  (if_neg (by simp [hm])).trans (if_neg (by simp [hl]))

end

/-! ### REFOCUS_READ (R144) -/

/-- The results of REFOCUS_READ: the entries of a generation, in the raster order of the regions. -/
def State.rfcResult (s : State) (g : RfGen) : List Byte :=
  s.regions.flatMap fun r => rfBytes (mapGet (fun _ => rfIdentity) g.entries r)

section
variable {s : State} {c : Cmd} (hs : s.mayStart c 0x0402 = true)
include hs

theorem exec_refocusRead_unkept (h : s.rfc.history.find? (fun g => g.gen == c.arg 0 2) = none) :
    exec (.refocusRead c) s = .next (s.refuse c 0x0108) :=
  congrArg Host.Outcome.next ((if_pos hs).trans (by rw [h]))

variable {g : RfGen} (h : s.rfc.history.find? (fun g => g.gen == c.arg 0 2) = some g)
include h

theorem exec_refocusRead_kept : exec (.refocusRead c) s = .next (
    if !resultOk (c.arg 8 8) (32 * s.regions.length) then s.refuse c 0x010A
    else if !s.resultRoom (c.arg 8 8) (32 * s.regions.length) then s
    else (s.putResult (c.arg 8 8) (s.rfcResult g)).done c []) :=
  congrArg Host.Outcome.next ((if_pos hs).trans (by rw [h]; rfl))

theorem exec_refocusRead_range (hr : resultOk (c.arg 8 8) (32 * s.regions.length) = false) :
    exec (.refocusRead c) s = .next (s.refuse c 0x010A) := by
  rw [exec_refocusRead_kept hs h, if_pos (by simp [hr])]

theorem exec_refocusRead_waits (hr : resultOk (c.arg 8 8) (32 * s.regions.length) = true)
    (hm : s.resultRoom (c.arg 8 8) (32 * s.regions.length) = false) : exec (.refocusRead c) s = .next s := by
  rw [exec_refocusRead_kept hs h, if_neg (by simp [hr]), if_pos (by simp [hm])]

theorem exec_refocusRead_done (hr : resultOk (c.arg 8 8) (32 * s.regions.length) = true)
    (hm : s.resultRoom (c.arg 8 8) (32 * s.regions.length) = true) :
    exec (.refocusRead c) s = .next ((s.putResult (c.arg 8 8) (s.rfcResult g)).done c []) := by
  rw [exec_refocusRead_kept hs h, if_neg (by simp [hr]), if_neg (by simp [hm])]

end

end Sys2Proof.Machine

open Sys2Proof Sys2Proof.Machine

/-- Settles O45: each trigger, rebuild end, tick and read is one of the cases above; a swap flips which table counts as active, so the
active table of every cluster is the one that was inactive, and the results stand in the stack byte by byte. -/
theorem refocusRebuildsAndSwaps : Obligations.RefocusRebuildsAndSwaps := by
  refine ⟨fun s hup => ?force, fun s hf hb hr => ?done, fun s m hcan hup hlock => ?tick, fun s c hs => ?read⟩
  case force =>
    rw [exec_rfcForceWrite hup]
    refine ⟨fun h => by rw [State.rfcTrigger_frozen h], fun hz hf h => by rw [State.rfcTrigger_building hz hf h],
      fun hz hf hb hr => ⟨s.rfcBegin, by rw [State.rfcTrigger_idle hz hf hb hr], ?_⟩⟩
    exact ⟨rfl, rfl, rfl, rfl, rfl, rfl, rfl, rfl, State.rfcBegin_disabled⟩
  case done =>
    have h := s.rfcWrite_built
    have hnow : s.rfcWrite.now = s.now := by rw [h.rest]
    have hhist : s.rfcWrite.rfc.history = s.rfc.history := by rw [h.rest]
    refine ⟨s.rfcBuilt, exec_refocusRebuildDone hf hb hr, ?_, rfl, hnow, hhist, fun c => ⟨h.active c, ?_⟩⟩
    · rw [State.rfcBuilt, h.rest]
    · exact (h.inactive c).trans (by simp)
  case tick =>
    have hwf := State.regsWf_of_canonical hcan
    refine ⟨fun hm hr hk => ?swap, fun hm hl => ?late, State.rfcTick_neither⟩
    case swap =>
      have he := State.raiseN_event s.rfcSwapped 298 s.rfc.building.gen 0
      have hrfc := he.rfc
      have hev : (s.rfcSwapped.raiseN 298 s.rfc.building.gen 0).evStatus 298 = true :=
        State.raise_evStatus (s := s.rfcSwapped) (n := 298) hwf (by decide) hup hup hlock _ _
      rw [State.rfcTick_swap hm hr hk]
      generalize s.rfcSwapped.raiseN 298 s.rfc.building.gen 0 = t at he hrfc hev ⊢
      have htab (d : Fin 12) : t.rfcTab d true = s.rfcTab d false := by
        rw [State.rfcTab, hrfc]
        exact s.rfcTab_rfcSwapped d true
      rw [hrfc]
      exact ⟨rfl, rfl, rfl, rfl, rfl, hev, htab, he⟩
    case late =>
      obtain ⟨he, hctr, hev⟩ := State.count_report hwf (id := idRfcLate) (m := 299) s.rfc.gen
        ((s.addCtr idRfcLate 1).ctr idRfcLate % 2 ^ 32) (by decide) (by decide)
      rw [State.rfcTick_late hm hl]
      exact ⟨he.rfc, hev hup hlock hup, hctr, he⟩
  case read =>
    refine ⟨fun h => ⟨_, exec_refocusRead_unkept hs h, s.refuse_answered c _⟩, fun g h => ?_⟩
    refine ⟨fun hr => ⟨_, exec_refocusRead_range hs h hr, s.refuse_answered c _⟩, exec_refocusRead_waits hs h, fun hr hm => ?_⟩
    have ha := State.done_answered (s.putResult (c.arg 8 8) (s.rfcResult g)) c []
    refine ⟨_, _, exec_refocusRead_done hs h hr hm, ha, s.putResult_dram _ _, fun hcan h0 i hi => ?_, fun a hout => ?_⟩
    · rw [ha.dramByte]
      exact State.dramByte_putResult_inside (State.mem_wf_of_canonical hcan) h0 hi
    · rw [ha.dramByte]
      rcases hout with h0 | hout
      · rw [h0, State.dramByte_putResult_none]
      · exact s.dramByte_putResult_outside _ hout
end

section
/-!
A strip's way through Mask and the engines (R171 to R177, R184): the marks that Mask gives it, what their counts leave alone, the engine that
it is handed to, and what its delivery leaves alone.
-/
namespace Sys2Proof.Machine

/-! ### The first strip of a kind -/

section
variable {α : Type} {l pre post : List α} {x : α} (h : l = pre ++ x :: post)
include h

theorem findIdx?_of_append_cons {p : α → Bool} (hpre : ∀ y ∈ pre, p y = false) (hx : p x = true) : l.findIdx? p = some pre.length := by
  rw [h, List.findIdx?_append, List.findIdx?_eq_none_iff.2 hpre, List.findIdx?_cons, hx]
  simp

theorem getElem?_of_append_cons : l[pre.length]? = some x := by simp [h]

theorem set_of_append_cons (y : α) : l.set pre.length y = pre ++ y :: post := by simp [h]

end

/-! ### Marks (R171, R172) -/

theorem bit_of_fld_zero {w : Word} {hi i : Nat} (h : fld w hi 0 = 0) (hle : i ≤ hi) : bit w i = false := by
  have hb := Nat.testBit_mod_two_pow w.toNat (hi + 1) i
  have hz : w.toNat % 2 ^ (hi + 1) = 0 := by simpa [fld] using h
  rw [hz, Nat.zero_testBit, decide_eq_true (by omega), Bool.true_and] at hb
  exact hb.symm

section
variable (s : State) (q : Fin 4) (st : Nat) (box : RayBox)

/-- The first plate of a list gets one mark, and with the three enables at 0 it is kept. -/
theorem State.cullList_cons (k : Nat) (ks : List Nat) (opq : Bool) : ∃ c o, s.cullList q st box (k :: ks) opq = c :: s.cullList q st box ks o ∧
    c.mark ≤ 3 ∧ (fld (s.reg (idMaskCtrl q.val)) 2 0 = 0 → c.mark = 0) := by
  rw [State.cullList]
  dsimp only
  split
  next h =>
    obtain ⟨hen, -⟩ := Bool.and_eq_true_iff.1 h
    exact ⟨_, _, rfl, Nat.le_refl 3, fun hz => absurd hen (by simp [bit_of_fld_zero hz (i := 2) (by decide)])⟩
  split
  next h =>
    obtain ⟨hen, -⟩ := Bool.and_eq_true_iff.1 h
    exact ⟨_, _, rfl, Nat.le_add_right 1 2, fun hz => absurd hen (by simp [bit_of_fld_zero hz (i := 0) (by decide)])⟩
  refine ⟨_, _, rfl, ?_, fun hz => by simp [bit_of_fld_zero hz (i := 1) (by decide)]⟩
  dsimp only
  split <;> decide

/-- Each plate of the blend list gets one mark. -/
theorem State.cullList_length (l : List Nat) (opq : Bool) : (s.cullList q st box l opq).length = l.length := by
  induction l generalizing opq with
  | nil => rfl
  | cons k ks ih =>
    obtain ⟨c, o, h, -, -⟩ := s.cullList_cons q st box k ks opq
    rw [h, List.length_cons, List.length_cons, ih]

theorem State.cullList_mark_le (l : List Nat) (opq : Bool) : ∀ c ∈ s.cullList q st box l opq, c.mark ≤ 3 := by
  induction l generalizing opq with
  | nil => exact fun _ hc => absurd hc List.not_mem_nil
  | cons k ks ih =>
    obtain ⟨c, o, h, hle, -⟩ := s.cullList_cons q st box k ks opq
    rw [h]
    exact List.forall_mem_cons.2 ⟨hle, ih o⟩

theorem State.cullList_mark_zero (hz : fld (s.reg (idMaskCtrl q.val)) 2 0 = 0) (l : List Nat) (opq : Bool) :
    ∀ c ∈ s.cullList q st box l opq, c.mark = 0 := by
  induction l generalizing opq with
  | nil => exact fun _ hc => absurd hc List.not_mem_nil
  | cons k ks ih =>
    obtain ⟨c, o, h, -, h0⟩ := s.cullList_cons q st box k ks opq
    rw [h]
    exact List.forall_mem_cons.2 ⟨h0 hz, ih o⟩

end

/-! ### Counts (R175, R183, R184) -/

/-- Only live counters other than id have counted. -/
structure CountsOthers (id : Nat) (s t : State) : Prop where
  rest : t = { s with regs := { s.regs with live := t.regs.live, clock := t.regs.clock } }
  live : t.live id = s.live id

theorem CountsOthers.refl (id : Nat) (s : State) : CountsOthers id s s := ⟨rfl, rfl⟩

theorem CountsOthers.trans {id : Nat} {s t u : State} (h : CountsOthers id s t) (k : CountsOthers id t u) : CountsOthers id s u where
  rest := by rw [k.rest, h.rest]
  live := k.live.trans h.live

theorem State.addLive_others (s : State) {id i : Nat} (n : Nat) (h : id ≠ i) : CountsOthers id s (s.addLive i n) :=
  ⟨rfl, mapGet_mapSet_ne _ _ h⟩

theorem State.live_addLive_same {s : State} (hw : mapWf (fun _ => 0) s.regs.live = true) (id n : Nat) :
    (s.addLive id n).live id = min (s.live id + n) (2 ^ 48 - 1) := mapGet_mapSet_same hw id _

/-- The counts of one plate's part are not those of the strips. -/
theorem State.countCull_others (s : State) (q : Fin 4) (c : Culled) : CountsOthers (idMaskStrips q.val) s (s.countCull q c) := by
  have fetched : idMaskStrips q.val ≠ idTilesFetched q.val := by simp
  have transp : idMaskStrips q.val ≠ idTilesTransp q.val := by simp
  have occl : idMaskStrips q.val ≠ idTilesOccl q.val := by simp
  have add (s : State) {i : Nat} (n : Nat) (h : idMaskStrips q.val ≠ i) := s.addLive_others n h
  have saved (s t : State) (h : CountsOthers (idMaskStrips q.val) s t) :=
    h.trans (add t (t.rayCost c.slot * t.stripUnits) (i := idSamplesSaved q.val) (by simp))
  unfold State.countCull
  dsimp only
  split
  · exact (add s _ fetched).trans (add _ _ transp)
  · exact saved _ _ (add s _ transp)
  · exact saved _ _ (add s _ occl)
  · exact saved _ _ (.refl _ s)

theorem State.countCulls_others (q : Fin 4) (l : List Culled) (s : State) :
    CountsOthers (idMaskStrips q.val) s (l.foldl (fun s c => s.countCull q c) s) := by
  induction l generalizing s with
  | nil => exact .refl _ s
  | cons c l ih => exact (s.countCull_others q c).trans (ih _)

/-! ### SKIP_LIST -/

/-- What Mask finds of the plates of the blend list for a strip. -/
def State.stripCull (s : State) (q : Fin 4) (x : Strip) : List Culled :=
  s.cullList q (s.easel q).steer (s.stripBox q (s.easel q).steer x.row x.m) s.blendNow false

/-- The Easel whose strip x, behind pre and before post, has been decided. -/
def Easel.decided (e : Easel) (pre : List Strip) (x : Strip) (post : List Strip) (cs : List Culled) : Easel :=
  { e with strips := pre ++ { x with marks := some (cs.map Culled.mark) } :: post
           culled := e.culled &&& ~~~ BitVec.ofNat 8 (maskOf ((cs.filter fun c => c.mark == 0).map fun c => c.slot.val)) }

/-- The strip is decided and counted. -/
def State.stripDecided (s : State) (q : Fin 4) (pre : List Strip) (x : Strip) (post : List Strip) : State :=
  (s.setEasel q ((s.easel q).decided pre x post (s.stripCull q x))).addLive (idMaskStrips q.val) 1

section
variable {s : State} {q : Fin 4} {pre post : List Strip} {x : Strip}

theorem exec_skipList (hm : s.maskRuns = true) (hst : (s.easel q).st = .running) (hs : (s.easel q).strips = pre ++ x :: post)
    (hpre : ∀ p ∈ pre, p.marks ≠ none) (hx : x.marks = none) :
    exec (.skipList q) s = .next ((s.stripCull q x).foldl (fun s c => s.countCull q c) (s.stripDecided q pre x post)) := by
  have hi : (s.easel q).strips.findIdx? (fun x => x.marks.isNone) = some pre.length :=
    findIdx?_of_append_cons hs (fun p hp => Option.isNone_eq_false_iff.2 (Option.isSome_iff_ne_none.2 (hpre p hp))) (by simp [hx])
  change execSkipList q s = _
  simp only [execSkipList, hi, getElem?_of_append_cons hs, set_of_append_cons hs, hm, hst, beq_self_eq_true, Bool.and_self, ↓reduceIte]
  rw [State.stripDecided, Easel.decided, hst]
  rfl

/-- Deciding a strip moves no other Easel and counts it. -/
theorem State.stripDecided_spec (s : State) (q : Fin 4) (pre : List Strip) (x : Strip) (post : List Strip) :
    (s.stripDecided q pre x post).easel q = (s.easel q).decided pre x post (s.stripCull q x) ∧
    (∀ z : Fin 4, z ≠ q → (s.stripDecided q pre x post).easels[z] = s.easels[z]) ∧
    (mapWf (fun _ => 0) s.regs.live = true → (s.stripDecided q pre x post).live (idMaskStrips q.val) =
      min (s.live (idMaskStrips q.val) + 1) (2 ^ 48 - 1)) :=
  ⟨s.easel_setEasel_same q _, fun _ hz => s.easels_setEasel_ne _ hz, fun hw => State.live_addLive_same (s := s.setEasel q _) hw _ 1⟩

/-! ### STRIP_DISPATCH (R177) -/

/-- The round robin passes every engine of the quadrant that may take strips, and no other. -/
theorem State.mem_engineOrder (s : State) (q : Fin 4) (k : Nat) : k ∈ s.engineOrder q ↔ k / 24 = q.val ∧ s.engineTakes k = true := by
  simp only [State.engineOrder, List.mem_filter, List.mem_map, List.mem_range]
  refine and_congr_left fun _ => ⟨?_, fun hk => ?_⟩
  · rintro ⟨i, -, rfl⟩
    omega
  · exact ⟨(k + 24 - ((s.easel q).lastEngine + 1) % 24) % 24, by omega, by omega⟩

/-- Engine k of quadrant q may take a strip and holds fewer than two. -/
def State.engineFree (s : State) (q : Fin 4) (k : Nat) : Prop :=
  k / 24 = q.val ∧ s.engineTakes k = true ∧ ((s.easel q).strips.filter fun x => x.engine == some k).length < 2

/-- The engine whose turn it is. -/
def State.nextEngine (s : State) (q : Fin 4) : Option Nat :=
  (s.engineOrder q).find? fun n => decide (((s.easel q).strips.filter fun x => x.engine == some n).length < 2)

theorem State.engineFree_iff (s : State) (q : Fin 4) (k : Nat) : s.engineFree q k ↔
    k ∈ s.engineOrder q ∧ ((s.easel q).strips.filter fun x => x.engine == some k).length < 2 := by
  rw [s.mem_engineOrder, and_assoc, State.engineFree]

theorem State.nextEngine_some {k : Nat} (h : s.nextEngine q = some k) : s.engineFree q k :=
  (s.engineFree_iff q k).2 ⟨List.mem_of_find?_eq_some h, by simpa using List.find?_some h⟩

theorem State.nextEngine_none (h : ∀ k, ¬ s.engineFree q k) : s.nextEngine q = none :=
  Option.eq_none_iff_forall_ne_some.2 fun k hk => h k (State.nextEngine_some hk)

theorem State.nextEngine_of_free {k : Nat} (h : s.engineFree q k) : ∃ n, s.nextEngine q = some n := by
  obtain ⟨hk, hl⟩ := (s.engineFree_iff q k).1 h
  exact Option.isSome_iff_exists.1 (List.find?_isSome.2 ⟨k, hk, decide_eq_true hl⟩)

theorem findIdx?_undispatched (hs : (s.easel q).strips = pre ++ x :: post) (hpre : ∀ p ∈ pre, p.marks = none ∨ p.engine ≠ none)
    (hx : x.marks ≠ none) (he : x.engine = none) :
    (s.easel q).strips.findIdx? (fun x => x.marks.isSome && x.engine.isNone) = some pre.length := by
  refine findIdx?_of_append_cons hs (fun p hp => ?_) ?_
  · rcases hpre p hp with h | h
    · simp [h]
    · simp [Option.isNone_eq_false_iff.2 (Option.isSome_iff_ne_none.2 h)]
  · simp [he, Option.isSome_iff_ne_none.2 hx]

theorem exec_stripDispatch (hm : s.maskRuns = true) (hst : (s.easel q).st = .running) (hs : (s.easel q).strips = pre ++ x :: post)
    (hpre : ∀ p ∈ pre, p.marks = none ∨ p.engine ≠ none) (hx : x.marks ≠ none) (he : x.engine = none) {k : Nat}
    (hk : s.nextEngine q = some k) :
    exec (.stripDispatch q) s = .next (s.setEasel q
      { s.easel q with strips := pre ++ { x with engine := some k } :: post, lastEngine := k % 24 }) := by
  have hi := findIdx?_undispatched hs hpre hx he
  unfold State.nextEngine at hk
  change execStripDispatch q s = _
  simp only [execStripDispatch, hi, getElem?_of_append_cons hs, set_of_append_cons hs, hk, hm, hst, beq_self_eq_true, Bool.and_self, ↓reduceIte]

theorem exec_stripDispatch_busy (hs : (s.easel q).strips = pre ++ x :: post) (hpre : ∀ p ∈ pre, p.marks = none ∨ p.engine ≠ none)
    (hx : x.marks ≠ none) (he : x.engine = none) (hk : s.nextEngine q = none) : exec (.stripDispatch q) s = .next s := by
  have hi := findIdx?_undispatched hs hpre hx he
  unfold State.nextEngine at hk
  change execStripDispatch q s = _
  simp only [execStripDispatch, hi, getElem?_of_append_cons hs, hk]

end

/-! ### What a delivery leaves alone -/

/-- What neither the values of a delivered strip nor the evaluation of the lead touches: the plates, memory, the exposure, the registers
outside the event block, the strip and line-buffer pools, the other Easels, and the strips and rows of q's Easel. -/
structure KeepsStrips (q : Fin 4) (s t : State) : Prop where
  plates : t.plates = s.plates
  mem : t.dmc.mem = s.dmc.mem
  expo : t.expo = s.expo
  reg : ∀ id, evuReg id = false → t.reg id = s.reg id
  pool : ∀ k, 33 ≤ k → k < 41 → t.pool k = s.pool k
  others : ∀ z : Fin 4, z ≠ q → t.easels[z] = s.easels[z]
  strips : (t.easel q).strips = (s.easel q).strips
  rows : (t.easel q).rows = (s.easel q).rows

section
variable {q : Fin 4} {s t u : State}

theorem KeepsStrips.refl (q : Fin 4) (s : State) : KeepsStrips q s s :=
  ⟨rfl, rfl, rfl, fun _ _ => rfl, fun _ _ _ => rfl, fun _ _ => rfl, rfl, rfl⟩

theorem KeepsStrips.trans (h : KeepsStrips q s t) (k : KeepsStrips q t u) : KeepsStrips q s u where
  plates := k.plates.trans h.plates
  mem := k.mem.trans h.mem
  expo := k.expo.trans h.expo
  reg := fun i hi => (k.reg i hi).trans (h.reg i hi)
  pool := fun i h1 h2 => (k.pool i h1 h2).trans (h.pool i h1 h2)
  others := fun z hz => (k.others z hz).trans (h.others z hz)
  strips := k.strips.trans h.strips
  rows := k.rows.trans h.rows

theorem KeepsStrips.ite {p : Prop} [Decidable p] (h : KeepsStrips q s t) (k : KeepsStrips q s u) :
    KeepsStrips q s (if p then t else u) := by
  split
  · exact h
  · exact k

theorem KeepsStrips.foldl {α : Type} {f : State → α → State} (h : ∀ s a, KeepsStrips q s (f s a)) (l : List α) (s : State) :
    KeepsStrips q s (l.foldl f s) := by
  induction l generalizing s with
  | nil => exact .refl q s
  | cons a l ih => exact (h s a).trans (ih _)

theorem EventEffect.keepsStrips (h : EventEffect s t) (q : Fin 4) : KeepsStrips q s t where
  plates := by rw [h.rest]
  mem := by rw [h.rest]
  expo := by rw [h.rest]
  reg := h.reg
  pool := fun k _ h2 => h.pool k (by omega)
  others := fun _ _ => by rw [h.easels]
  strips := by rw [State.easel, h.easels, State.easel]
  rows := by rw [State.easel, h.easels, State.easel]

end

theorem State.countLive_keepsStrips (s : State) (q : Fin 4) (id n : Nat) (m : Bool) : KeepsStrips q s (s.countLive id n m) :=
  ⟨rfl, rfl, rfl, fun _ _ => rfl, fun _ _ _ => rfl, fun _ _ => rfl, rfl, rfl⟩

theorem State.setFresh_keepsStrips (s : State) (q : Fin 4) (n : Nat) : KeepsStrips q s { s with fresh := n } :=
  ⟨rfl, rfl, rfl, fun _ _ => rfl, fun _ _ _ => rfl, fun _ _ => rfl, rfl, rfl⟩

/-- A change of the controllers beside their memory. -/
theorem State.setDmc_keepsStrips (s : State) (q : Fin 4) {d : Dmc} (h : d.mem = s.dmc.mem) : KeepsStrips q s { s with dmc := d } :=
  ⟨rfl, h, rfl, fun _ _ => rfl, fun _ _ _ => rfl, fun _ _ => rfl, rfl, rfl⟩

theorem State.setEasel_keepsStrips (s : State) {q : Fin 4} {e : Easel} (h1 : e.strips = (s.easel q).strips)
    (h2 : e.rows = (s.easel q).rows) : KeepsStrips q s (s.setEasel q e) where
  plates := rfl
  mem := rfl
  expo := rfl
  reg := fun _ _ => rfl
  pool := fun _ _ _ => rfl
  others := fun _ hz => s.easels_setEasel_ne e hz
  strips := by rw [s.easel_setEasel_same, h1]
  rows := by rw [s.easel_setEasel_same, h2]

theorem State.issue_keepsStrips (s : State) (q : Fin 4) {k : Nat} (n : Nat) (h : k < 33) : KeepsStrips q s (s.issue k n) where
  plates := s.issue_plates k n
  mem := by rw [s.issue_dmc]
  expo := s.issue_expo k n
  reg := fun _ _ => by rw [State.reg, s.issue_regs, State.reg]
  pool := fun _ h1 _ => s.pool_issue_ne n (by omega)
  others := fun _ _ => by rw [s.issue_easels]
  strips := by rw [State.easel, s.issue_easels, State.easel]
  rows := by rw [State.easel, s.issue_easels, State.easel]

/-! ### The lead (R242, R243), and the tokens that requests in another class find -/

theorem State.grantOne_keepsStrips {s t : State} (q : Fin 4) {p : Fin 64} {r : DReq} (h : s.grantOne p r = some t) : KeepsStrips q s t := by
  obtain ⟨sh, -, rfl⟩ := Option.map_eq_some_iff.1 h
  have hc : 18 + classIx r.cls < 33 := by cases r.cls <;> decide
  refine .trans (.trans ?_ (State.issue_keepsStrips _ q 1 hc)) (State.issue_keepsStrips _ q 1 (by decide))
  exact s.setDmc_keepsStrips q rfl

theorem State.grantClass_keepsStrips (q : Fin 4) (p : Fin 64) (c : DClass) (n : Nat) (s : State) :
    KeepsStrips q s (State.grantClass p c n s) := by
  induction n generalizing s with
  | zero => exact .refl q s
  | succ n ih =>
    unfold State.grantClass
    split
    · exact .refl q s
    · refine .ite (.refl q s) ?_
      split
      · exact .refl q s
      next hg => exact (State.grantOne_keepsStrips q hg).trans (ih _)

theorem State.grantAll_keepsStrips (s : State) (q : Fin 4) : KeepsStrips q s s.grantAll :=
  .foldl (fun s p => .ite (.foldl (fun s c => State.grantClass_keepsStrips q p c _ s) _ s) (.refl q s)) _ s

theorem State.reclass_keepsStrips (s : State) (q z : Fin 4) (c : DClass) : KeepsStrips q s (s.reclass z c) := by
  unfold State.reclass
  dsimp only
  split
  · exact s.setDmc_keepsStrips q rfl
  · refine .trans ?_ (State.grantAll_keepsStrips _ q)
    exact s.setDmc_keepsStrips q rfl

theorem State.urgFlush_keepsStrips (s : State) (q : Fin 4) : KeepsStrips q s (s.urgFlush q) := by
  have h := s.setEasel_keepsStrips (q := q) (e := { s.easel q with urgAt := s.now }) rfl rfl
  unfold State.urgFlush
  dsimp only
  split
  · exact h
  · exact h.trans (State.countLive_keepsStrips _ q _ _ _)
  · exact h.trans (State.countLive_keepsStrips _ q _ _ _)

theorem State.setUrg_keepsStrips (s : State) (q : Fin 4) (u : Urgency) : KeepsStrips q s (s.setUrg q u) := by
  have h := ((s.urgFlush_keepsStrips q).trans (State.setEasel_keepsStrips _ (e := { (s.urgFlush q).easel q with
    urg := u, panicked := ((s.urgFlush q).easel q).panicked || u == .panic }) rfl rfl)).trans (State.reclass_keepsStrips _ q q (urgClass u))
  exact .ite (.refl q s) (.ite (h.trans ((State.raiseN_event _ _ _ _).keepsStrips q)) h)

theorem State.evalLead_keepsStrips (s : State) (q : Fin 4) : KeepsStrips q s (s.evalLead q) := by
  refine .trans ?_ (State.setUrg_keepsStrips _ q _)
  exact s.setEasel_keepsStrips rfl rfl

/-! ### STRIP_DELIVERED (R176) -/

theorem State.paintStrip_keepsStrips (s : State) (q : Fin 4) (c : Fin 12) (row m : Nat) (marks : List Nat) :
    KeepsStrips q s (s.paintStrip q c row m marks) := by
  have counts (t : State) (a b c : Nat) (x y z : Nat) : KeepsStrips q t (((t.addLive a x).addLive b y).addLive c z) :=
    ((t.countLive_keepsStrips q _ _ _).trans (State.countLive_keepsStrips _ q _ _ _)).trans (State.countLive_keepsStrips _ q _ _ _)
  refine .trans ?_ (counts _ _ _ _ _ _ _)
  refine .trans ?_ (.ite (State.setFresh_keepsStrips _ q _) (.refl q _))
  exact s.setEasel_keepsStrips rfl rfl

/-- The Easel without strip x, whose part of its hogel row is complete. -/
def Easel.delivered (e : Easel) (x : Strip) : Easel :=
  { e with strips := e.strips.erase x, rows := e.rows.map fun r => if r.1 = x.row then (r.1, r.2 ||| 2 ^ x.m) else r }

/-- Strip x has been delivered and its token is back. -/
def State.stripDone (s : State) (q : Fin 4) (x : Strip) : State :=
  ((s.setEasel q ((s.easel q).delivered x)).giveBack (33 + q.val) 1).ctTokenBack q.val x.row x.m

theorem State.stripDone_easel (s : State) (q : Fin 4) (x : Strip) : (s.stripDone q x).easel q = (s.easel q).delivered x := by
  rw [State.stripDone, State.ctTokenBack, State.easel, State.giveBack_easels]
  exact s.easel_setEasel_same q _

theorem State.stripDone_others (s : State) {q z : Fin 4} (x : Strip) (h : z ≠ q) : (s.stripDone q x).easels[z] = s.easels[z] := by
  rw [State.stripDone, State.ctTokenBack, State.giveBack_easels]
  exact s.easels_setEasel_ne _ h

theorem State.stripDone_pool (s : State) (q : Fin 4) (x : Strip) : (s.stripDone q x).pool (33 + q.val) =
    { s.pool (33 + q.val) with returned := ((s.pool (33 + q.val)).returned + 1) % 2 ^ 64 } :=
  State.pool_setPool_same _ _ (by omega)

theorem State.stripDone_frame (s : State) (q : Fin 4) (x : Strip) : s.stripDone q x =
    { s with easels := (s.stripDone q x).easels, pools := (s.stripDone q x).pools, contact := (s.stripDone q x).contact } := by
  rw [State.stripDone, State.giveBack_frame]
  rfl

/-- The lead is evaluated if hogel row n is complete. -/
def State.rowEvaluated (s : State) (q : Fin 4) (n : Nat) : State :=
  if mapFind (s.easel q).rows n = some (2 ^ s.qw - 1) then s.evalLead q else s

theorem State.rowEvaluated_keepsStrips (s : State) (q : Fin 4) (n : Nat) : KeepsStrips q s (s.rowEvaluated q n) :=
  .ite (s.evalLead_keepsStrips q) (.refl q s)

theorem exec_stripDelivered {s : State} {k : Fin 96} {q : Fin 4} {x : Strip} (hk : k.val / 24 = q.val)
    (hx : (s.easel q).strips.find? (fun x => x.engine == some k.val) = some x) (ht : s.engineTakes k.val = true)
    (hr : s.easelRuns q = true) (hst : (s.easel q).st = .running) : exec (.stripDelivered k) s = .next
      (((s.paintStrip q (Fin.ofNat 12 (k.val / 8)) x.row x.m (x.marks.getD [])).stripDone q x).rowEvaluated q x.row) := by
  have hq : Fin.ofNat 4 (k.val / 24) = q := Fin.ext (by simp only [Fin.ofNat]; omega)
  change execStripDelivered k s = _
  simp only [execStripDelivered, hq, hx, ht, hr, hst, beq_self_eq_true, Bool.and_self, ↓reduceIte]
  rw [State.rowEvaluated, State.stripDone_easel]
  rfl

end Sys2Proof.Machine

open Sys2Proof Sys2Proof.Machine

/-- Settles O41: a strip is decided by `cullList`, whose counts are of other live counters; the round robin finds an engine exactly when one
is free; and beside the strip's own return a delivery only paints and evaluates the lead, which leave strips, rows and tokens alone. -/
theorem stripsAreCulledDispatchedAndDelivered : Obligations.StripsAreCulledDispatchedAndDelivered := by
  refine fun s q => ⟨fun pre x post hm hst hs hpre hx => ?cull, fun pre x post hm hst hs hpre hx he => ?dispatch,
    fun k x hk hx ht hr hst => ?deliver⟩
  case cull =>
    obtain ⟨hown, hothers, hlive⟩ := s.stripDecided_spec q pre x post
    have hc := State.countCulls_others q (s.stripCull q x) (s.stripDecided q pre x post)
    have hexec := exec_skipList hm hst hs hpre hx
    generalize (s.stripCull q x).foldl (fun s c => s.countCull q c) (s.stripDecided q pre x post) = t at hc hexec
    have heas : t.easels = (s.stripDecided q pre x post).easels := by rw [hc.rest]
    have hq : t.easels[q] = (s.easel q).decided pre x post (s.stripCull q x) := by rw [heas, ← hown]; rfl
    refine ⟨t, (s.stripCull q x).map Culled.mark, hexec, ?_, by rw [hq]; rfl, ?_, ?_, fun h0 => ?_, by rw [hq]; rfl, fun z hz => ?_,
      fun hw => by rw [hc.live, hlive hw]⟩
    · rw [heas, hc.rest]
      rfl
    · rw [List.length_map]
      exact s.cullList_length q _ _ _ _
    · exact List.forall_mem_map.2 (s.cullList_mark_le q _ _ _ _)
    · exact List.forall_mem_map.2 (s.cullList_mark_zero q _ _ h0 _ _)
    · rw [heas]
      exact hothers z hz
  case dispatch =>
    refine ⟨fun ⟨k, hk⟩ => ?_, fun hk => exec_stripDispatch_busy hs hpre hx he (State.nextEngine_none hk)⟩
    obtain ⟨n, hn⟩ := State.nextEngine_of_free hk
    exact ⟨_, n, exec_stripDispatch hm hst hs hpre hx he hn, State.nextEngine_some hn, rfl, s.easel_setEasel_same q _,
      fun _ hz => s.easels_setEasel_ne _ hz⟩
  case deliver =>
    have hexec := exec_stripDelivered hk hx ht hr hst
    have hp := s.paintStrip_keepsStrips q (Fin.ofNat 12 (k.val / 8)) x.row x.m (x.marks.getD [])
    generalize s.paintStrip q (Fin.ofNat 12 (k.val / 8)) x.row x.m (x.marks.getD []) = u at hexec hp
    have ht := (u.stripDone q x).rowEvaluated_keepsStrips q x.row
    have hf := u.stripDone_frame q x
    have hpool := hp.pool (33 + q.val) (by omega) (by omega)
    refine ⟨_, hexec, ?_, ?_, ?_, ?_, ?_, ?_, fun id hid => ?_, fun z hz => ?_⟩
    · exact ht.strips.trans (by rw [u.stripDone_easel, Easel.delivered, hp.strips]; rfl)
    · exact ht.rows.trans (by rw [u.stripDone_easel, Easel.delivered, hp.rows]; rfl)
    · rw [ht.pool _ (by omega) (by omega), u.stripDone_pool, hpool]
    · rw [ht.plates, hf, hp.plates]
    · rw [ht.mem, hf, hp.mem]
    · rw [ht.expo, hf, hp.expo]
    · rw [ht.reg id hid, hf]
      exact hp.reg id hid
    · rw [ht.others z hz, u.stripDone_others x hz, hp.others z hz]
end

section
/-!
The form in which a Fixer stores a block (R188 to R192, R198, R200, R201): the fields of its entry, the forms that `codeBlock` can answer, and
their decoding under that entry.
-/
namespace Sys2Proof.Machine

/-! ### The fields of an entry -/

/-- The three flags of an entry lie below its LEN field (R188). -/
theorem entryFlags_lt (aopq atrn fb : Bool) : b2n aopq * 2 ^ 9 + b2n atrn * 2 ^ 8 + b2n fb * 2 ^ 7 < 2 ^ 10 := by
  cases aopq <;> cases atrn <;> cases fb <;> decide

section
variable {mode len : Nat} (aopq atrn fb : Bool)

@[simp] theorem entMode_mkEntry (hm : mode < 4) (hl : len < 16) : entMode (mkEntry mode len aopq atrn fb) = mode := by
  have := entryFlags_lt aopq atrn fb
  rw [entMode, mkEntry]
  omega

@[simp] theorem entLen_mkEntry (hl : len < 16) : entLen (mkEntry mode len aopq atrn fb) = len := by
  have := entryFlags_lt aopq atrn fb
  rw [entLen, mkEntry]
  omega

end

/-! ### Stored bytes under their own entry -/

@[simp] theorem padTo_length (n : Nat) (l : List Byte) : (padTo n l).length = n := by
  simp only [padTo, List.length_take, List.length_append, List.length_replicate]
  omega

@[simp] theorem packBits_length (n : Nat) (bits : List Bool) : (packBits n bits).length = n := by
  induction n generalizing bits with
  | zero => rfl
  | succ n ih => rw [packBits, List.length_cons, ih]

/-- Bytes of at most 16 units are read whole under the entry that holds their length (R190). -/
theorem take_entLen_mkEntry {st : List Byte} {u : Nat} (hu : u ≤ 16) (hst : st.length = 32 * u) (mode : Nat) (aopq atrn fb : Bool) :
    st.take (32 * (entLen (mkEntry mode (st.length / 32 - 1) aopq atrn fb) + 1)) = st := by
  rw [entLen_mkEntry aopq atrn fb (by omega), List.take_of_length_le (by omega)]

/-! ### The forms of a coded block -/

/-- What coding a block can answer (R200, R201): RAW, counted as a fallback at least where FB stands; or FLAT or PRED, and then only bytes
that the verify Developer, itself not upset, has decoded to the raw bytes. -/
inductive StoredForm (l : YLayout) (raw : List Byte) (upset : Bool) : Coded → Prop where
  | raw {fb fallback : Bool} (hfb : fb = true → fallback = true) : StoredForm l raw upset (codedRaw raw fb fallback)
  | flat {st : List Byte} (hup : upset = false) (hlen : st.length = 32 * 1) (hdec : decodeFlat l st = some raw) :
      StoredForm l raw upset ⟨2, st, none, false, false, false⟩
  | pred {st : List Byte} {ends : List Rice} {u : Nat} (hup : upset = false) (hu : u < 16) (hlen : st.length = 32 * u)
      (hdec : decodePred l st = some raw) : StoredForm l raw upset ⟨1, st, some ends, false, false, false⟩

/-- The verify of R201 passes only without an upset and where the decoded bytes are the raw bytes. -/
theorem verify_passes {upset : Bool} {d : Option (List Byte)} {raw : List Byte} (h : ¬ (upset || d ≠ some raw) = true) :
    upset = false ∧ d = some raw := by
  simpa using h

theorem codeBlock_storedForm (l : YLayout) (ctrl : Word) (k0 : List Nat) (raw : List Byte) (upset : Bool) :
    StoredForm l raw upset (codeBlock l ctrl k0 raw upset) := by
  have mismatch : StoredForm l raw upset (codedRaw raw true true) := .raw id
  have chosen (fallback : Bool) : StoredForm l raw upset (codedRaw raw false fallback) := .raw nofun
  simp only [codeBlock]
  split
  case isTrue => exact chosen false
  case isFalse =>
    split
    case isTrue =>
      split
      case isTrue => exact mismatch
      case isFalse hv =>
        obtain ⟨hup, hdec⟩ := verify_passes hv
        exact .flat hup (padTo_length ..) hdec
    case isFalse =>
      split
      · exact chosen false
      · split
        case isTrue => exact chosen true
        case isFalse hu =>
          split
          case isTrue => exact mismatch
          case isFalse hv =>
            obtain ⟨hup, hdec⟩ := verify_passes hv
            exact .pred hup (by omega) (packBits_length ..) hdec

theorem codeBlock_forceRaw {ctrl : Word} (h : bit ctrl 4 = true) (l : YLayout) (k0 : List Nat) (raw : List Byte) (upset : Bool) :
    codeBlock l ctrl k0 raw upset = codedRaw raw false false := by
  simp only [codeBlock, h, ↓reduceIte]

/-- With every form disabled there is no PRED candidate, and none is a fallback (R200 step 3, R201). -/
theorem codeBlock_allDisabled {ctrl : Word} (h0 : bit ctrl 0 = false) (h1 : bit ctrl 1 = false) (h2 : bit ctrl 2 = false)
    (h3 : bit ctrl 3 = false) (l : YLayout) (k0 : List Nat) (raw : List Byte) (upset : Bool) :
    codeBlock l ctrl k0 raw upset = codedRaw raw false false := by
  have hnone : bestPred l k0 raw [] = none := rfl
  simp [codeBlock, h0, h1, h2, h3, hnone]

namespace StoredForm
variable {l : YLayout} {raw : List Byte} {upset : Bool} {c : Coded} (h : StoredForm l raw upset c)
include h

/-- A stored form takes whole units, at most the 16 of the slot (R190). -/
theorem units (hraw : raw.length = 512) : ∃ u ≤ 16, c.stored.length = 32 * u := by
  cases h with
  | raw => exact ⟨16, Nat.le_refl 16, hraw⟩
  | flat _ hlen => exact ⟨1, by decide, hlen⟩
  | pred _ hu hlen => exact ⟨_, Nat.le_of_lt hu, hlen⟩

theorem mode_lt : c.mode < 4 := by cases h <;> exact of_decide_eq_true rfl

/-- The alpha flags of the entry do not matter to the decoding. -/
theorem decodes (hraw : raw.length = 512) (aopq atrn : Bool) :
    decodeStored l (mkEntry c.mode (c.stored.length / 32 - 1) aopq atrn c.fb) c.stored = some raw := by
  obtain ⟨u, hu, hlen⟩ := h.units hraw
  simp only [decodeStored, take_entLen_mkEntry hu hlen, entMode_mkEntry aopq atrn c.fb h.mode_lt (show c.stored.length / 32 - 1 < 16 by omega)]
  cases h with
  | raw => rfl
  | flat _ _ hdec => exact hdec
  | pred _ _ _ hdec => exact hdec

theorem fb_eq_mismatch : c.fb = c.mismatch := by cases h <;> rfl

theorem fallback_of_mismatch (hm : c.mismatch = true) : c.fallback = true := by
  cases h with
  | raw hfb => exact hfb hm
  | flat => cases hm
  | pred => cases hm

theorem mode_of_fallback (hf : c.fallback = true) : c.mode = 0 := by
  cases h with
  | raw => rfl
  | flat => cases hf
  | pred => cases hf

theorem mode_of_upset (hup : upset = true) : c.mode = 0 := by
  cases h with
  | raw => rfl
  | flat hno => cases hno.symm.trans hup
  | pred hno => cases hno.symm.trans hup

end StoredForm

end Sys2Proof.Machine

open Sys2Proof Sys2Proof.Machine

/-- Settles O38: a FLAT or PRED form is stored only once the verify has decoded it to the raw bytes, and every other block is stored RAW,
which decodes to itself; FORCE_RAW and a lack of predictors answer before any count. -/
theorem storedBlocksDecodeExactly : Obligations.StoredBlocksDecodeExactly := by
  intro l ctrl k0 raw upset alpha hraw
  have hform := codeBlock_storedForm l ctrl k0 raw upset
  obtain ⟨u, hu, hlen⟩ := hform.units hraw
  refine ⟨hform.decodes hraw _ _, by omega, by omega, hform.fb_eq_mismatch, fun hm => ?mismatch, hform.mode_of_fallback,
    hform.mode_of_upset, fun hforce => ?forced, fun h0 h1 h2 h3 => ?disabled⟩
  case mismatch => exact ⟨hform.mode_of_fallback (hform.fallback_of_mismatch hm), hform.fallback_of_mismatch hm⟩
  case forced => rw [codeBlock_forceRaw hforce]; exact ⟨rfl, rfl⟩
  case disabled => rw [codeBlock_allDisabled h0 h1 h2 h3]; exact ⟨rfl, rfl⟩
end

section
/-!
CT.STORED_BLOCKS (R20, R299) beyond its 64 bits: each count takes the counter modulo 2^64, and a job whose destination region holds no block
counts nothing. A submission admits no such region and no count leaves such a counter, but the canonical form of a state excludes neither.
-/
namespace Sys2Proof.Machine

/-- A running FILL of 8 by 1 elements into the back buffer of slot 0, whose destination region, from column 1 up to column 1, holds no
block. -/
def columnlessFill : CtJob where
  seq := 5
  desc := leBytes 8 0 ++ leBytes 2 8 ++ leBytes 2 1 ++ leBytes 4 0 ++ leBytes 8 (2 ^ 63) ++ List.replicate 24 7
  order := 0
  dst := ⟨some (0, 1, 0), 1, 1, 0, 1⟩
  dstFront := false
  src := none
  tokens := []
  started := true
  left := 0
  complete := false
  headAt := none
  passed := false
  ticks := 0
  wmTicks := 0
  fault := false
  waitExp := false
  wmExp := false
  demoted := false

/-- The plane of a C8 plate of 64 by 64 elements at address 0: eight blocks, and their entries behind them. -/
def c8Plane : Plane := ⟨0, .e8, 64, 64, false, 0, 4096⟩

/-- A slot whose open back buffer is such a plate, with one write credit in flight. -/
def c8Slot : PlateSlot :=
  { PlateSlot.reset with bufs := PlateSlot.reset.bufs.set 1 ⟨some ⟨0, 4, 64, 64, 1, 1, false⟩, 0, 4112, 1, false, 0, []⟩, back := .opened }

/-- Every domain runs, the job is alone in queue 0, and the counter of stored blocks shows 2^64. -/
def beyondCounterWidth : State :=
  { State.reset with
    pmu := { Pmu.reset with powered := 0xFFFFFF, clamped := 0, lock := 0x1FFFF, mode := .field }
    dmc := { State.reset.dmc with state := .run }
    plates := State.reset.plates.set 0 c8Slot
    contact := { Contact.reset with qs := Contact.reset.qs.set 0 ⟨6, [columnlessFill]⟩ }
    regs := { State.reset.regs with ctrs := [(idCtStored, 2 ^ 64)] } }

/-- The job runs, and no job of the other queue does. -/
theorem beyondCounterWidth_runs : beyondCounterWidth.canonical = true ∧ beyondCounterWidth.maskRuns = true ∧
    beyondCounterWidth.ctRuns 0 = some columnlessFill ∧ beyondCounterWidth.ctRuns 1 = none := by decide +kernel

/-- Its destination is the plane of slot 0's back buffer. -/
theorem beyondCounterWidth_destination : ctSurf (ctDesc columnlessFill.desc).dst = some (.plate 0 false 0) ∧
    (beyondCounterWidth.buf 0 1).plane 0 = some c8Plane := by decide +kernel

/-- The counter of stored blocks in the next state of an outcome. -/
def Out.stored (o : Out) : Option Nat := match o with | .next t => some (t.ctr idCtStored) | _ => none

/-- The job completes without a count: the counter keeps its 2^64. -/
theorem beyondCounterWidth_stored : Out.stored (exec (.contactJobComplete 0) beyondCounterWidth) = some (2 ^ 64) := by decide +kernel

/-- The old value and the region's blocks, of which there are none, modulo 2^64. -/
theorem beyondCounterWidth_sum : (beyondCounterWidth.ctr idCtStored +
    (columnlessFill.dst.x1 - columnlessFill.dst.x0) * (columnlessFill.dst.y1 - columnlessFill.dst.y0)) % 2 ^ 64 = 0 := by decide +kernel

end Sys2Proof.Machine

open Sys2Proof Sys2Proof.Machine

/-- Refutes O44: the clause for a plate destination says that the counter of stored blocks becomes its old value and the region's blocks,
modulo 2^64, also where the region holds no block and the counter shows 2^64; such a job counts nothing, and the counter stays 2^64. A
hypothesis that the counter is below 2^64, or that the region holds a block, excludes this state. -/
theorem not_contactJobsQueueStartAndComplete : ¬ Obligations.ContactJobsQueueStartAndComplete := by
  unfold Obligations.ContactJobsQueueStartAndComplete
  rintro ⟨-, -, hjobs⟩
  obtain ⟨hcan, hmask, hruns, hother⟩ := beyondCounterWidth_runs
  obtain ⟨hsurf, hplane⟩ := beyondCounterWidth_destination
  obtain ⟨-, -, -, -, -, hends⟩ := hjobs beyondCounterWidth 0 columnlessFill hcan hmask rfl rfl
  have hfirst : ∀ k, beyondCounterWidth.ctRuns (1 - 0) = some k → columnlessFill.left ≤ k.left :=
    fun k hk => nomatch hother.symm.trans hk
  have hplate := (hends hruns hfirst (by decide +kernel) none (.inl ⟨by decide +kernel, rfl⟩)).2
  have hempty : ∀ bx by_, ¬ (columnlessFill.dst.x0 ≤ bx ∧ bx < columnlessFill.dst.x1 ∧
      columnlessFill.dst.y0 ≤ by_ ∧ by_ < columnlessFill.dst.y1) :=
    fun bx _ ⟨h0, h1, _⟩ => absurd h1 (Nat.not_lt.2 h0)
  obtain ⟨t, hexec, -, -, hcount, -⟩ := hplate 0 1 0 c8Plane false 0 rfl hplane hsurf (by decide +kernel) rfl rfl (by decide +kernel)
    fun bx by_ h => absurd h (hempty bx by_)
  have hstored : t.ctr idCtStored = 2 ^ 64 := by
    have h := beyondCounterWidth_stored
    rw [hexec] at h
    exact Option.some.inj h
  have hzero : t.ctr idCtStored = 0 := hcount.trans beyondCounterWidth_sum
  exact absurd (hstored.symm.trans hzero) (by decide)
end
